-- ==== Sys2Proof/Word.lean ====
section
/-! DEFINITION. The plainest types of the model: characters, ports, four-fold collections, slot
numbers, generations and handles (spec/00_scope.md, Conventions). -/

namespace Sys2Proof

/-- The eight data bits of one character of a host link (R154). -/
abbrev Byte := BitVec 8

/-- The four host ports, P0 to P3. -/
inductive Port where
  | p0
  | p1
  | p2
  | p3
  deriving DecidableEq, Repr

/-- The ports in ascending order. -/
def Port.all : List Port := [.p0, .p1, .p2, .p3]

/-- The number of a port, 0 to 3. -/
def Port.toNat : Port → Nat
  | .p0 => 0
  | .p1 => 1
  | .p2 => 2
  | .p3 => 3

/-- The port with a given number, where there is one. -/
def Port.ofNat? : Nat → Option Port
  | 0 => some .p0
  | 1 => some .p1
  | 2 => some .p2
  | 3 => some .p3
  | _ => none

/-- One value for each of the four ports. -/
structure Quad (α : Type) where
  p0 : α
  p1 : α
  p2 : α
  p3 : α
  deriving DecidableEq, Repr

/-- The value of one port. -/
def Quad.get {α : Type} (q : Quad α) : Port → α
  | .p0 => q.p0
  | .p1 => q.p1
  | .p2 => q.p2
  | .p3 => q.p3

/-- The collection with one port's value replaced. -/
def Quad.set {α : Type} (q : Quad α) (p : Port) (a : α) : Quad α :=
  match p with
  | .p0 => { q with p0 := a }
  | .p1 => { q with p1 := a }
  | .p2 => { q with p2 := a }
  | .p3 => { q with p3 := a }

/-- The same value for every port. -/
def Quad.const {α : Type} (a : α) : Quad α := ⟨a, a, a, a⟩

/-- Each port's value by a function. -/
def Quad.map {α β : Type} (f : α → β) (q : Quad α) : Quad β :=
  ⟨f q.p0, f q.p1, f q.p2, f q.p3⟩

/-- A set of ports (spec/00_scope.md, Ports and Port Sets): one membership for each. -/
abbrev PortSet := Quad Bool

/-- The port set with no member. -/
def PortSet.empty : PortSet := Quad.const false

/-- The port set with one member. -/
def PortSet.single (p : Port) : PortSet := PortSet.empty.set p true

/-- The port set with one port added. -/
def PortSet.add (ps : PortSet) (p : Port) : PortSet := Quad.set ps p true

/-- A slot number, 0 to 63 (R18). -/
abbrev SlotNo := Fin 64

/-- A generation, 0 to 15, advancing modulo 16 (R19). -/
abbrev Gen := Fin 16

/-- The name of an entry: a slot number with the generation of the slot (R19). -/
structure Handle where
  slot : SlotNo
  gen : Gen
  deriving DecidableEq, Repr

end Sys2Proof
end

