-- ==== Sys2Proof/Config.lean ====
section
/-! DEFINITION. What the part fixes as a constant, and the free value the spec leaves open. -/

namespace Sys2Proof.Config

/-- The count of the last instant, 2099-12-31 23:59:59 fraction 255 (spec/00_scope.md, Instant). -/
def lastInstant : Nat := 807874559999

/-- The count of the last whole second of the epoch, 2099-12-31 23:59:59 (R66). -/
def lastSecond : Nat := 807874559744

/-- Time units in a day (R9). -/
def tuPerDay : Nat := 22118400

/-- The span of a search, 1,461 days in time units (R67). -/
def searchSpan : Nat := 32314982400

/-- Crystal cycles in a trim window (R2). -/
def windowCycles : Nat := 1048576

/-- Crystal cycles in one group of 25 ten-millisecond ticks (R4). -/
def tickGroupCycles : Nat := 8192

/-- Records a Notice Queue can hold (R82). -/
def queueRoom : Nat := 16

/-- The greatest value a lateness, a fire total or a tolerance can show (R53, R22). -/
def saturation : Nat := 65535

/-- The greatest count a notice can show (R78). -/
def countSaturation : Nat := 255

/-- The greatest slew offset either way, in time units (R113). -/
def slewLimit : Nat := 512

/-- The greatest body a frame can carry (R156). -/
def bodyRoom : Nat := 24

/-- FREE VALUE, with no body, so nothing in Lean can evaluate it. R181 lays out the CREATE options
character and marks some of its bits 'not examined', R183 sends that character back in QUERY
PARAMETERS, and no rule says what the unexamined bits then read as.
notes/assumptions/1.md. -/
opaque freeOptionBits : Nat → BitVec 8

end Sys2Proof.Config
end

