-- ==== Sys2Proof/Syntax.lean ====
section
/-! DEFINITION. The commands of the block: one constructor for each row of
spec/opcode_table.json, with the operands the row's rule needs. -/

namespace Sys2Proof

/-- The header of a frame the host sends: bit 7, which is not examined, the retry flag and the
sequence (R180). The class is fixed by the command. -/
structure Header where
  spare : Bool
  retry : Bool
  seq : Fin 16
  deriving DecidableEq, Repr

/-- One character as the receiver samples it: its data bits, its mark bit and whether its stop bit
was marking (R154). -/
structure RxChar where
  data : Byte
  mark : Bool
  stopGood : Bool
  deriving DecidableEq, Repr

/-- The levels of the pins that a port-domain start samples: the SUPV straps, the BAUD straps and
whether each RXn is marking (R150, R155, R162, R175). -/
structure Straps where
  supv : Port
  baud : Fin 4
  marking : Quad Bool
  deriving DecidableEq, Repr

/-- The class of an accepted frame that a host may send without effect (R163). -/
inductive UnusedClass where
  | response
  | notice
  deriving DecidableEq, Repr

/-- Which block an oscillator second is delivered to (R4). -/
inductive SecondSink where
  | lease
  | port (p : Port)
  deriving DecidableEq, Repr

/-- Which block raised the event a look answers: a presentation of the Timebase, or a join or the
end of a rescan at the Schedule Table (R49). -/
inductive LookSource where
  | timebase
  | table
  deriving DecidableEq, Repr

/-- Which block handed a notice on (R78). -/
inductive NoticeSource where
  | table
  | timebase
  | lease
  deriving DecidableEq, Repr

/-- How much of a request's way a command covers (R148, R165): the whole from its acceptance to the
verdict; its acceptance alone, after which it waits in service to be handed to its owning block; or
the handing on of the request that waits. -/
inductive Phase where
  | whole
  | accepted
  | handedOn
  deriving DecidableEq, Repr

/-- Where a level of PF or RST is taken (R172): behind the input filter, or at the pin, which the
filter samples at each crystal cycle. -/
inductive PinPoint where
  | filtered
  | pin
  deriving DecidableEq, Repr

/-- The commands. A request carries its port, its frame's header and the body characters after the
request code, so that `body position n` of R182 is the command's argument `n - 1`. COLD_START carries the
straps where VDD is good as the rail rises. -/
inductive Instr where
  | openReq (p : Port) (h : Header) (args : List Byte) (phase : Phase := .whole)
  | closeReq (p : Port) (h : Header) (args : List Byte) (phase : Phase := .whole)
  | pingReq (p : Port) (h : Header) (args : List Byte) (phase : Phase := .whole)
  | statusReq (p : Port) (h : Header) (args : List Byte) (phase : Phase := .whole)
  | resyncReq (p : Port) (h : Header) (args : List Byte) (phase : Phase := .whole)
  | readTime (p : Port) (h : Header) (args : List Byte) (phase : Phase := .whole)
  | stageTime (p : Port) (h : Header) (args : List Byte) (phase : Phase := .whole)
  | commitTime (p : Port) (h : Header) (args : List Byte) (phase : Phase := .whole)
  | cancelCommit (p : Port) (h : Header) (args : List Byte) (phase : Phase := .whole)
  | readTrim (p : Port) (h : Header) (args : List Byte) (phase : Phase := .whole)
  | setTrim (p : Port) (h : Header) (args : List Byte) (phase : Phase := .whole)
  | acquire (p : Port) (h : Header) (args : List Byte) (phase : Phase := .whole)
  | renew (p : Port) (h : Header) (args : List Byte) (phase : Phase := .whole)
  | release (p : Port) (h : Header) (args : List Byte) (phase : Phase := .whole)
  | create (p : Port) (h : Header) (args : List Byte) (phase : Phase := .whole)
  | arm (p : Port) (h : Header) (args : List Byte) (phase : Phase := .whole)
  | suspend (p : Port) (h : Header) (args : List Byte) (phase : Phase := .whole)
  | resume (p : Port) (h : Header) (args : List Byte) (phase : Phase := .whole)
  | delete (p : Port) (h : Header) (args : List Byte) (phase : Phase := .whole)
  | query (p : Port) (h : Header) (args : List Byte) (phase : Phase := .whole)
  | list (p : Port) (h : Header) (args : List Byte) (phase : Phase := .whole)
  | kick (p : Port) (h : Header) (args : List Byte) (phase : Phase := .whole)
  | kickAtNamedPort (q : Port)
  | setQuota (p : Port) (h : Header) (args : List Byte) (phase : Phase := .whole)
  | breakLease (p : Port) (h : Header) (args : List Byte) (phase : Phase := .whole)
  | purge (p : Port) (h : Header) (args : List Byte) (phase : Phase := .whole)
  | unknownRequest (p : Port) (h : Header) (body : List Byte)
  | overrun (p : Port) (h : Header) (body : List Byte)
  | ack (p : Port) (h : Header) (body : List Byte)
  | unusedFrame (p : Port) (cls : UnusedClass) (h : Header) (body : List Byte)
  | receiveError (p : Port) (chars : List RxChar)
  | gap (p : Port)
  | breakLine (p : Port)
  | responseFrameStart (p : Port) (rdy : Bool)
  | noticeFrameStart (p : Port) (rdy : Bool)
  | resendFrameStart (p : Port) (rdy : Bool)
  | endOfService (p : Port)
  | tuAdvance
  | trimWindowStart
  | oscillatorSecond (sink : SecondSink)
  | leaseExpiry
  | keepaliveTimeout (p : Port)
  | tenMsTick
  | ackTimeout (p : Port)
  | look (src : LookSource)
  | firingClaim
  | wakeRequest
  | noticeTaken (src : NoticeSource)
  | searchRunComplete
  | resultClaim
  | stepClaim
  | rescanVisit
  | rescanEnd
  | epochEndClaim
  | leaseEndClaim
  | sessionEndClaim (p : Port)
  | releaseClaim (p : Port)
  | pf (asserted : Bool) (straps : Straps) (point : PinPoint := .filtered)
  | rst (asserted : Bool) (straps : Straps) (point : PinPoint := .filtered)
  | vddLoss
  | vddGood (straps : Straps)
  | coldStart (pf : Bool) (rst : Bool) (good : Option Straps := none)
  | noticeFrameEnd (p : Port)
  | frameHeader (p : Port) (data : Byte)
  | returnToMarking (p : Port)
  deriving DecidableEq, Repr

end Sys2Proof
end

