-- ==== Sys2Proof/WellFormed.lean ====
section
/-! DEFINITION. Which commands are well formed: the checks that tie a command's operands to its
row. The meanings are total and give every ill-formed command an effect too. -/

namespace Sys2Proof

/-- The request codes of R182. -/
def requestCodes : List Byte :=
  [0x10, 0x11, 0x12, 0x13, 0x14, 0x20, 0x21, 0x22, 0x23, 0x24, 0x25, 0x30, 0x31, 0x32,
   0x40, 0x41, 0x42, 0x43, 0x44, 0x45, 0x46, 0x50, 0x51, 0x52, 0x53]

/-- A request body whose code R182 does not define, or which is empty and carries none. -/
def codeUndefined : List Byte → Bool
  | [] => true
  | c :: _ => !requestCodes.contains c

/-- The arguments of a request leave room for its code within the 24 body characters (R156). -/
def argsFit (args : List Byte) : Bool := args.length < Config.bodyRoom

/-- A frame body within the 24 characters (R156). -/
def bodyFits (body : List Byte) : Bool := body.length ≤ Config.bodyRoom

/-- A command whose operands suit its row. -/
def Instr.wellFormed : Instr → Bool
  | .openReq _ _ a _ | .closeReq _ _ a _ | .pingReq _ _ a _ | .statusReq _ _ a _ | .resyncReq _ _ a _
  | .readTime _ _ a _ | .stageTime _ _ a _ | .commitTime _ _ a _ | .cancelCommit _ _ a _
  | .readTrim _ _ a _ | .setTrim _ _ a _ | .acquire _ _ a _ | .renew _ _ a _ | .release _ _ a _
  | .create _ _ a _ | .arm _ _ a _ | .suspend _ _ a _ | .resume _ _ a _ | .delete _ _ a _
  | .query _ _ a _ | .list _ _ a _ | .kick _ _ a _ | .setQuota _ _ a _ | .breakLease _ _ a _
  | .purge _ _ a _ => argsFit a
  | .unknownRequest _ _ b => bodyFits b && codeUndefined b
  | .overrun _ _ b => bodyFits b
  | .ack _ _ b => bodyFits b
  | .unusedFrame _ _ _ b => bodyFits b
  | .receiveError _ cs => !cs.isEmpty
  | .kickAtNamedPort _ | .gap _ | .breakLine _ | .responseFrameStart _ _
  | .noticeFrameStart _ _ | .resendFrameStart _ _ | .endOfService _ | .tuAdvance
  | .trimWindowStart | .oscillatorSecond _ | .leaseExpiry | .keepaliveTimeout _ | .tenMsTick
  | .ackTimeout _ | .look _ | .firingClaim | .wakeRequest | .noticeTaken _
  | .searchRunComplete | .resultClaim | .stepClaim | .rescanVisit | .rescanEnd
  | .epochEndClaim | .leaseEndClaim | .sessionEndClaim _ | .releaseClaim _ | .pf _ _ _
  | .rst _ _ _ | .vddLoss | .vddGood _ | .coldStart _ _ _ | .noticeFrameEnd _
  | .frameHeader _ _ | .returnToMarking _ => true

end Sys2Proof
end

