-- ==== Sys2Proof/Machine/State.lean ====
section
/-! DEFINITION. The state of the part, block by block (spec/00_scope.md, Functional Overview), what
is on its way between the blocks, and the state after a cold start. -/

namespace Sys2Proof.Machine

/-! ### Stops -/

/-- No command of this part stops the machine: the spec gives every event an effect, so this type
has no constructor (NOTES.md, Stops). -/
inductive Fault where
  deriving DecidableEq, Repr

/-- Why a command is refused by the model (a request the PART refuses is answered with a status, which
is no refusal of the model). -/
inductive Refusal where
  /-- Raised by `exec` alone, for a command with no meaning yet; safe, since nothing is claimed.
  No arm raises it now. -/
  | notModelled (mnemonic : String)
  deriving DecidableEq, Repr

/-! ### Oscillator and Prescaler (retained domain) -/

/-- The Oscillator and Prescaler (R1 to R5). -/
structure Prescaler where
  /-- Crystal cycles counted toward the next TU advance, 0 to 127 (R1). -/
  residue : Nat
  /-- Crystal cycles of the window still to be left out of the residue (R2, positive trim). -/
  skip : Nat
  /-- Crystal cycles elapsed in the trim window (R2). -/
  windowPos : Nat
  /-- The trim acting in this window, −128 to +127 (R2). -/
  trim : Int
  /-- The trim the next window start copies (R3). -/
  pendingTrim : Int
  /-- TU advances handed on since the last oscillator second, 0 to 255 (R1, R4). -/
  secondCount : Nat
  /-- Crystal cycles elapsed in the group of 25 ten-millisecond ticks (R4). -/
  tickPos : Nat
  deriving DecidableEq, Repr

/-! ### Timebase (retained domain) -/

/-- The slew state: IDLE, or ACTIVE with the signed remaining R and the phase of 0 to 63 (R119). -/
inductive Slew where
  | idle
  | active (remaining : Int) (phase : Nat)
  deriving DecidableEq, Repr

/-- The commit slot: EMPTY, or PENDING with the staged second and the committing port (R116). -/
inductive CommitSlot where
  | empty
  | pending (second : Nat) (port : Port)
  deriving DecidableEq, Repr

/-- The Timebase (R6, R12, R116, R119). The calendar view of the instant is computed from its count. -/
structure Timebase where
  /-- The count of the instant (R6). -/
  instant : Nat
  /-- The VALID flag (R12). -/
  valid : Bool
  slew : Slew
  slot : CommitSlot
  deriving DecidableEq, Repr

/-! ### Lease Unit (port domain) -/

/-- The Set Lease: holder and whole oscillator seconds remaining (R100). -/
structure LeaseUnit where
  holder : Option Port
  remaining : Nat
  deriving DecidableEq, Repr

/-! ### Schedule Table (retained domain) -/

/-- How a RELATIVE or ABSOLUTE entry is treated by a rescan (R21). -/
inductive StepPolicy where
  | absolute
  | relative
  deriving DecidableEq, Repr

/-- Whether a teardown of the owner's session frees the entry (R21). -/
inductive OrphanPolicy where
  | keep
  | release
  deriving DecidableEq, Repr

/-- The start of a ONCE or PERIODIC entry: an instant held as its count, or an offset (R21). -/
inductive Start where
  | absolute (count : Nat)
  | relative (offset : Nat)
  deriving DecidableEq, Repr

/-- The six fields of a MATCH pattern, each a value or ANY (R65). -/
structure Pattern where
  month : Option Nat
  day : Option Nat
  weekday : Option Nat
  hour : Option Nat
  minute : Option Nat
  second : Option Nat
  deriving DecidableEq, Repr

/-- The kind of an entry with the description of its time (R21). -/
inductive Plan where
  | once (start : Start) (policy : StepPolicy)
  | periodic (start : Start) (period : Nat) (policy : StepPolicy)
  | calendar (pattern : Pattern)
  deriving DecidableEq, Repr

/-- The end cause of a SPENT entry (The Entry Record). -/
inductive SpentCause where
  | countDone
  | noMatch
  | epoch
  deriving DecidableEq, Repr

/-- The states of an entry, each with the due or end cause that R23 gives it there. -/
inductive EntryState where
  | held
  | armed (due : Nat)
  | searching
  | suspended (due : Option Nat)
  | spent (cause : SpentCause)
  deriving DecidableEq, Repr

/-- The entry record of a slot that is not FREE (The Entry Record; R20 to R23). -/
structure Entry where
  state : EntryState
  owner : Port
  plan : Plan
  repeatLimit : Nat
  /-- Present when the repeat limit is above 0 (R22). -/
  remaining : Option Nat
  fireTotal : Nat
  tolerance : Nat
  delivery : PortSet
  orphan : OrphanPolicy
  wake : Bool
  tag : BitVec 32
  deriving DecidableEq, Repr

/-- A slot: its generation, and its entry or FREE (R18). -/
structure Slot where
  gen : Gen
  entry : Option Entry
  deriving DecidableEq, Repr

/-- What the table holds while its mode is RESCAN (R126), with the instant set by the step, from
which R132 takes N. `position` is 64 once slot 63 has been visited. DEDUCED
(notes/assumptions/13.md). -/
structure Rescan where
  delta : Int
  instant : Nat
  position : Nat
  deriving DecidableEq, Repr

/-- The mode of the Schedule Table (R18, R126). -/
inductive TableMode where
  | normal
  | rescan (r : Rescan)
  deriving DecidableEq, Repr

/-- The Schedule Table (R18, R126). -/
structure Table where
  slots : Vector Slot 64
  quota : Quad Nat
  mode : TableMode
  /-- Release claims held until the rescan ends, in the order taken (R38). -/
  heldReleases : List Port
  deriving DecidableEq, Repr

/-! ### Due List (retained domain) -/

/-- A member of the Due List (R46). -/
structure DueItem where
  due : Nat
  slot : SlotNo
  deriving DecidableEq, Repr

/-! ### Search Queue (retained) and engine (port domain) -/

/-- A search reference: a whole second by its count, or past the epoch (R66). -/
inductive Reference where
  | second (count : Nat)
  | pastEpoch
  deriving DecidableEq, Repr

/-- A job of the Search Queue (R68). -/
structure Job where
  slot : SlotNo
  gen : Gen
  ref : Reference
  deriving DecidableEq, Repr

/-- The phase of a run (R69). -/
inductive RunPhase where
  | searching
  | delivered
  deriving DecidableEq, Repr

/-- The state of the Match Search Engine (R69). -/
inductive Engine where
  | idle
  | running (slot : SlotNo) (phase : RunPhase)
  | paused
  deriving DecidableEq, Repr

/-- The Search Queue and its engine (R68, R69). -/
structure Search where
  jobs : List Job
  engine : Engine
  deriving DecidableEq, Repr

/-! ### Notices and Notice Queues (retained domain) -/

/-- The end causes an ENDED notice carries (R78). -/
inductive EndedCause where
  | noMatch
  | epoch
  | purged
  deriving DecidableEq, Repr

/-- The lease causes a LEASE notice carries (R78). -/
inductive LeaseCause where
  | expired
  | broken
  | reset
  deriving DecidableEq, Repr

/-- What a notice reports: the fields of R78 that the block handing it on supplies. Instants are
held as counts. -/
inductive Content where
  | firing (missed : Bool) (handle : Handle) (tag : BitVec 32) (due : Nat) (count : Nat)
      (lateness : Nat) (isFinal : Bool)
  | ended (handle : Handle) (tag : BitVec 32) (cause : EndedCause)
  | stepped (instant : Nat) (delta : Int) (slewCancelled : Bool)
  | slewDone
  | commitDropped
  | epoch
  | lease (cause : LeaseCause)
  deriving DecidableEq, Repr

/-- A notice record without its sequence (R78). -/
structure Record where
  content : Content
  lossBefore : Bool
  deriving DecidableEq, Repr

/-- A record in flight, with its sequence and its re-send mark (R86, R87). -/
structure Sent where
  record : Record
  seq : Fin 16
  marked : Bool
  deriving DecidableEq, Repr

/-- A Notice Queue: the in-flight records ahead of the unsent ones (R82), and the LOSS flag (R84). -/
structure NoticeQueue where
  inFlight : List Sent
  unsent : List Record
  loss : Bool
  deriving DecidableEq, Repr

/-! ### Port Controllers (port domain) -/

/-- How the last session ended (R138). -/
inductive SessionEnd where
  | none
  | close
  | kick
  | timeout
  | lineBreak
  | reset
  | standby
  deriving DecidableEq, Repr

/-- The session record (R138). `isOpen` is the state; the keepalive count is held only while OPEN
with keepalive above 0. -/
structure Session where
  isOpen : Bool
  window : Nat
  ackTimeout : Nat
  retryLimit : Nat
  keepalive : Nat
  attention : Bool
  keepCount : Option Nat
  lastEnd : SessionEnd
  deriving DecidableEq, Repr

/-- The state of a port's delivery (R86). -/
inductive DeliveryState where
  | closed
  | ready
  | stalled
  deriving DecidableEq, Repr

/-- The delivery state of a port (R86). Its re-send marks stand on the in-flight records. -/
structure Delivery where
  state : DeliveryState
  nextSeq : Fin 16
  retries : Nat
  /-- Stopped, or running with a count of ticks. -/
  timer : Option Nat
  deriving DecidableEq, Repr

/-- The staging record: seven fields, each present with a value or absent (R111). -/
structure Staging where
  year : Option Byte
  month : Option Byte
  day : Option Byte
  hour : Option Byte
  minute : Option Byte
  second : Option Byte
  fraction : Option Byte
  deriving DecidableEq, Repr

/-- The receiver: HUNT, or IN_FRAME with the characters gathered so far, header first (R158). -/
inductive Receiver where
  | hunt
  | inFrame (got : List Byte)
  deriving DecidableEq, Repr

/-- The last receive error of a port (R161). -/
inductive RxError where
  | none
  | framing
  | gap
  | length
  | crc
  | aborted
  | overrun
  deriving DecidableEq, Repr

/-- A response that is ready: its body, status first, and whether it is a replay (R165, R167). -/
structure Response where
  body : List Byte
  replay : Bool
  deriving DecidableEq, Repr

/-- The request buffer of a request in service, and its response once the verdict is known (R164). -/
structure Service where
  header : Header
  body : List Byte
  response : Option Response
  deriving DecidableEq, Repr

/-- What the response cache holds (R166). -/
structure Cached where
  seq : Fin 16
  body : List Byte
  deriving DecidableEq, Repr

/-- The transmitter: free, or sending a frame given by the data bits of its characters. A response
frame remembers whether its request is still in service (R148, R169). -/
inductive Transmitter where
  | free
  | response (frame : List Byte) (inService : Bool)
  | notice (frame : List Byte)
  deriving DecidableEq, Repr

/-- The port-domain state of one host port (R86, R111, R138, R154 to R170). -/
structure PortCtl where
  session : Session
  delivery : Delivery
  staging : Staging
  rx : Receiver
  /-- The receiver waits for RXn to return to marking (R162). -/
  awaitMark : Bool
  lastError : RxError
  service : Option Service
  cache : Option Cached
  tx : Transmitter
  /-- RDYn as last sampled at a frame start (R168). -/
  rdy : Bool
  deriving DecidableEq, Repr

/-! ### Standby Controller (retained domain) -/

/-- What held the port domain, for its next start (R172). -/
inductive StartCause where
  | none
  | reset
  | standby
  deriving DecidableEq, Repr

/-- An input pin and its filter (R172): the level at the pin, and how many consecutive samples, up to
four, have shown another level than the filtered one. At four a change of the filtered level is due. -/
structure Pin where
  level : Bool
  run : Nat
  deriving DecidableEq, Repr

/-- The Standby Controller (R172). -/
structure Standby where
  /-- The port-domain state: RUNNING, or HELD. -/
  running : Bool
  /-- The standby flag. -/
  flag : Bool
  cause : StartCause
  /-- The WAKE latch is set. -/
  wake : Bool
  /-- Filtered PF is asserted. -/
  pf : Bool
  /-- Filtered RST is asserted. -/
  rst : Bool
  /-- VDD is good (R171). -/
  vddGood : Bool
  pfPin : Pin
  rstPin : Pin
  deriving DecidableEq, Repr

/-! ### What is on its way between blocks -/

/-- The ports a notice is addressed to, decided when the Notice Unit takes it (R80). -/
inductive Address where
  | ports (set : PortSet)
  | openSessions
  deriving DecidableEq, Repr

/-- A notice on its way to the Notice Unit. `stamp` numbers it; `after` is the stamp up to which the
notices of the block upstream are taken before it (R81). -/
structure NoticeMsg where
  src : NoticeSource
  stamp : Nat
  after : Nat
  content : Content
  address : Address
  deriving DecidableEq, Repr

/-- An event on its way to the Due Monitor (R49): a presented instant with the count a gained
advance passed over, or a join or rescan end at the Schedule Table. -/
inductive LookMsg where
  | presented (stamp : Nat) (instant : Nat) (passed : Option Nat)
  | tableEvent
  deriving DecidableEq, Repr

/-- The next state of an entry that a firing claim carries (R51). -/
inductive FiredState where
  | armed (due : Nat)
  | search (ref : Reference)
  | spent (cause : SpentCause)
  deriving DecidableEq, Repr

/-- A firing claim (R51). `occurrences` is k, before the notice saturates it. -/
structure FiringClaim where
  handle : Handle
  due : Nat
  missed : Bool
  occurrences : Nat
  lateness : Nat
  isFinal : Bool
  next : FiredState
  deriving DecidableEq, Repr

/-- A firing claim on its way, with the stamp of the look that made it (R52). -/
structure FiringMsg where
  stamp : Nat
  claim : FiringClaim
  deriving DecidableEq, Repr

/-- A result claim of the Match Search Engine: a found second, or NO_MATCH (R71). -/
structure ResultClaim where
  slot : SlotNo
  gen : Gen
  ref : Reference
  found : Option Nat
  deriving DecidableEq, Repr

/-- A claim of the Timebase on the Schedule Table (R13, R114). -/
inductive TimeClaim where
  | step (delta : Int) (instant : Nat)
  | epochEnd
  deriving DecidableEq, Repr

/-- A Timebase claim on its way, with whether an advance gave rise to it (R52). -/
structure TimeMsg where
  stamp : Nat
  fromAdvance : Bool
  claim : TimeClaim
  deriving DecidableEq, Repr

/-- A lease-end claim on its way to the Timebase, naming the former holder (R101). -/
structure LeaseEndMsg where
  stamp : Nat
  former : Port
  deriving DecidableEq, Repr

/-- A KICK on its way from the supervisor's controller to the named port's (R151). `live` says the
KICK is still in service at `sender` (R148). -/
structure KickMsg where
  sender : Port
  named : Port
  live : Bool
  deriving DecidableEq, Repr

/-- Marks of the prescaler that the crystal has made due and no command has taken yet (R1, R2, R4).
DESIGN CHOICE (notes/assumptions/5.md); they stay through a hold and a start (notes/assumptions/22.md). -/
structure Marks where
  windowStarts : Nat
  advances : Nat
  ticks : Nat
  leaseSeconds : Nat
  portSeconds : Quad Nat
  deriving DecidableEq, Repr

/-- What the blocks have handed on and the receiving blocks have not taken yet. DEDUCED
(notes/assumptions/4.md). -/
structure Transit where
  notices : List NoticeMsg
  wakes : Nat
  looks : List LookMsg
  firings : List FiringMsg
  results : List ResultClaim
  timeClaims : List TimeMsg
  releases : List Port
  leaseEnds : List LeaseEndMsg
  sessionEnds : List Port
  kicks : List KickMsg
  marks : Marks
  /-- The next stamp. -/
  stamp : Nat
  /-- The stamp of the last Timebase claim the Schedule Table has taken (R81). -/
  tableAfter : Nat
  /-- The stamp of the last lease-end claim the Timebase has taken (R81). -/
  timebaseAfter : Nat
  deriving DecidableEq, Repr

/-! ### The whole machine -/

/-- The state of the part. -/
structure State where
  /-- The commands that are waiting, first in, first out. -/
  pending : List Instr
  osc : Prescaler
  time : Timebase
  lease : LeaseUnit
  table : Table
  dueList : List DueItem
  search : Search
  queues : Quad NoticeQueue
  ports : Quad PortCtl
  standby : Standby
  /-- The supervisor port, read from the straps at the last port-domain start (R150). -/
  supervisor : Port
  /-- The BAUD straps as read at the last port-domain start (R155). -/
  baud : Fin 4
  /-- The levels of the straps and RXn at the pins, as a command at a pin last gave them
  (notes/assumptions/8.md). -/
  pins : Straps
  transit : Transit
  /-- The model's own: which free value is drawn next (Config.freeOptionBits). -/
  freeIndex : Nat
  deriving DecidableEq, Repr

/-! ### After a cold start -/

/-- The session record of a port with no session: every option at its default (R138). -/
def Session.closed (lastEnd : SessionEnd) : Session :=
  { isOpen := false, window := 2, ackTimeout := 50, retryLimit := 3, keepalive := 0,
    attention := true, keepCount := none, lastEnd := lastEnd }

/-- A delivery state at its reset values (R86). -/
def Delivery.atReset : Delivery := { state := .closed, nextSeq := 0, retries := 0, timer := none }

/-- A staging record with all seven fields absent (R111). -/
def Staging.absent : Staging := ⟨none, none, none, none, none, none, none⟩

/-- A port's controller held in its reset values (R149, R170). -/
def PortCtl.atReset (lastEnd : SessionEnd) : PortCtl :=
  { session := Session.closed lastEnd, delivery := Delivery.atReset, staging := Staging.absent,
    rx := .hunt, awaitMark := true, lastError := .none, service := none, cache := none,
    tx := .free, rdy := false }

/-- Nothing on its way. -/
def Transit.empty : Transit :=
  { notices := [], wakes := 0, looks := [], firings := [], results := [], timeClaims := [],
    releases := [], leaseEnds := [], sessionEnds := [], kicks := [],
    marks := ⟨0, 0, 0, 0, Quad.const 0⟩, stamp := 0, tableAfter := 0, timebaseAfter := 0 }

/-- The levels of the straps and RXn at the pins before any command gives them. DESIGN CHOICE
(notes/assumptions/9.md). -/
def Straps.atReset : Straps := ⟨.p0, 0, Quad.const true⟩

/-- The cold-start states of the retained blocks, with the port domain HELD (R178), for the levels of
filtered PF and RST, which are those at the pins, and whether VDD is good (R171, R172). -/
def State.cold (pending : List Instr) (freeIndex : Nat) (pf rst vddGood : Bool) (pins : Straps) :
    State :=
  { pending := pending
    osc := { residue := 0, skip := 0, windowPos := 0, trim := 0, pendingTrim := 0,
             secondCount := 0, tickPos := 0 }
    time := { instant := 0, valid := false, slew := .idle, slot := .empty }
    lease := { holder := none, remaining := 0 }
    table := { slots := Vector.replicate 64 { gen := 0, entry := none }, quota := Quad.const 16,
               mode := .normal, heldReleases := [] }
    dueList := []
    search := { jobs := [], engine := .paused }
    queues := Quad.const { inFlight := [], unsent := [], loss := false }
    ports := Quad.const (PortCtl.atReset .none)
    standby := { running := false, flag := pf || !vddGood, cause := .none, wake := false, pf := pf,
                 rst := rst, vddGood := vddGood, pfPin := ⟨pf, 0⟩, rstPin := ⟨rst, 0⟩ }
    supervisor := .p0
    baud := 0
    pins := pins
    transit := Transit.empty
    freeIndex := freeIndex }

/-- The machine right after reset: a cold start (R178) with VDD not yet good, PF and RST deasserted at
the pins and no command waiting. DEDUCED and DESIGN CHOICE (notes/assumptions/9.md). -/
def State.reset : State := State.cold [] 0 false false false Straps.atReset

end Sys2Proof.Machine
end

