-- ==== Sys2Proof/Machine/Calendar.lean ====
section
/-! DEFINITION. The calendar view of an instant, its count, and the carries of an advance
(R8 to R11). -/

namespace Sys2Proof.Machine

/-- The calendar view of an instant (spec/00_scope.md, Instant): year 0 to 99, month and day from 1. -/
structure Calendar where
  year : Nat
  month : Nat
  day : Nat
  hour : Nat
  minute : Nat
  second : Nat
  fraction : Nat
  deriving DecidableEq, Repr

/-- A year is a leap year when its two-digit value is divisible by 4 (spec/00_scope.md, Leap Years). -/
def leapYear (year : Nat) : Bool := year % 4 == 0

/-- The days of a month. -/
def monthLength (year month : Nat) : Nat :=
  if month = 2 then (if leapYear year then 29 else 28)
  else if month = 4 ∨ month = 6 ∨ month = 9 ∨ month = 11 then 30
  else 31

/-- Days before the year: 365 each, and one for every earlier leap year (R9). -/
def daysBeforeYear (year : Nat) : Nat := 365 * year + (year + 3) / 4

/-- Days before the month within its year (R9). -/
def daysBeforeMonth (year month : Nat) : Nat :=
  ((List.range (month - 1)).map fun k => monthLength year (k + 1)).sum

/-- The days before the date, d of R10. -/
def Calendar.days (c : Calendar) : Nat :=
  daysBeforeYear c.year + daysBeforeMonth c.year c.month + (c.day - 1)

/-- Seconds into the day. -/
def Calendar.timeOfDay (c : Calendar) : Nat := c.hour * 3600 + c.minute * 60 + c.second

/-- The count view of a calendar view (R9). -/
def Calendar.toCount (c : Calendar) : Nat := (c.days * 86400 + c.timeOfDay) * 256 + c.fraction

/-- The real-date test of R9. -/
def Calendar.isReal (c : Calendar) : Bool :=
  c.year ≤ 99 && 1 ≤ c.month && c.month ≤ 12 && 1 ≤ c.day && c.day ≤ monthLength c.year c.month
    && c.hour ≤ 23 && c.minute ≤ 59 && c.second ≤ 59 && c.fraction ≤ 255

/-- The month and day of a day of the year counted from 0, given the lengths of the months that
remain, of which the first is `month`. -/
def monthDay : List Nat → Nat → Nat → Nat × Nat
  | [], month, n => (month, n + 1)
  | l :: rest, month, n => if n < l then (month, n + 1) else monthDay rest (month + 1) (n - l)

/-- The lengths of the twelve months of a year. -/
def monthLengths (year : Nat) : List Nat := (List.range 12).map fun k => monthLength year (k + 1)

/-- The year of a day count. Four years with their leap day are 1,461 days, and the leap year is the
first of the four. -/
def yearOfDays (d : Nat) : Nat :=
  4 * (d / 1461) + (if d % 1461 < 366 then 0 else 1 + (d % 1461 - 366) / 365)

/-- The date and time whose days before the date, seconds into the day and fraction are given. -/
def calendarOf (d t fraction : Nat) : Calendar :=
  let y := yearOfDays d
  let md := monthDay (monthLengths y) 1 (d - daysBeforeYear y)
  { year := y, month := md.1, day := md.2, hour := t / 3600, minute := t / 60 % 60,
    second := t % 60, fraction := fraction }

/-- The calendar view of a count (R9, read backwards). -/
def calendarView (count : Nat) : Calendar :=
  calendarOf (count / Config.tuPerDay) (count / 256 % 86400) (count % 256)

/-- The weekday of a day count, Monday 1 to Sunday 7 (R10). -/
def weekdayOf (d : Nat) : Nat := (d + 5) % 7 + 1

/-- The weekday of a calendar view (R10). -/
def Calendar.weekday (c : Calendar) : Nat := weekdayOf c.days

/-- The week number of a calendar view (R11). -/
def Calendar.weekNumber (c : Calendar) : Nat :=
  let w1 := weekdayOf (daysBeforeYear c.year)
  let m := (8 - w1) % 7
  let n := c.days - daysBeforeYear c.year
  if n < m then 0 else 1 + (n - m) / 7

/-- One carry of R8: a field that has passed its last value, with the field above it. -/
def carryDate (c : Calendar) : Calendar :=
  let c := if c.day > monthLength c.year c.month then { c with day := 1, month := c.month + 1 } else c
  if c.month > 12 then { c with month := 1, year := c.year + 1 } else c

/-- The carries of R8, taken from the fraction upwards, of an advance that moves the instant by
`amount` time units. The Timebase holds the count; `Obligations.CalendarCarriesFollowCount` says
that the two views stay equal. -/
def Calendar.advance (c : Calendar) (amount : Nat) : Calendar :=
  let f := c.fraction + amount
  if f ≤ 255 then { c with fraction := f } else
  let c := { c with fraction := f - 256, second := c.second + 1 }
  let c := if c.second > 59 then { c with second := 0, minute := c.minute + 1 } else c
  let c := if c.minute > 59 then { c with minute := 0, hour := c.hour + 1 } else c
  let c := if c.hour > 23 then { c with hour := 0, day := c.day + 1 } else c
  carryDate c

/-- The first whole second strictly after an instant, past the epoch when there is none (R31, R66). -/
def referenceAfter (instant : Nat) : Reference :=
  let s := (instant / 256 + 1) * 256
  if s ≤ Config.lastSecond then .second s else .pastEpoch

/-- The reference after a firing at due `due`: one whole second later, past the epoch when that lies
beyond the last whole second (R58, R66). -/
def referenceAfterFiring (due : Nat) : Reference :=
  if due + 256 ≤ Config.lastSecond then .second (due + 256) else .pastEpoch

end Sys2Proof.Machine
end

