-- ==== Sys2Proof/Machine/Operands.lean ====
section
/-! DEFINITION. The operands of frames: numbers, field encodings, codes, headers, the CRC, and the
layouts of request, response and notice bodies (R156, R157, R180 to R184). -/

namespace Sys2Proof.Machine

/-! ### Numbers and characters (R181) -/

/-- A body character by its position, 0 where the body is shorter. -/
def byteAt (body : List Byte) (i : Nat) : Byte := body.getD i 0

/-- The value of characters, most significant first. -/
def bytesToNat (bs : List Byte) : Nat := bs.foldl (fun n b => n * 256 + b.toNat) 0

/-- A multi-character number of a body: `width` characters from a position. -/
def numberAt (body : List Byte) (pos width : Nat) : Nat := bytesToNat ((body.drop pos).take width)

/-- A number as `width` characters, most significant first. -/
def natBytes : Nat → Nat → List Byte
  | 0, _ => []
  | width + 1, n => BitVec.ofNat 8 (n / 256 ^ width) :: natBytes width n

/-- A signed number in two's complement. -/
def intBytes (width : Nat) (i : Int) : List Byte := natBytes width (i % 256 ^ width).toNat

/-- A two-character signed number of a body. -/
def signedAt (body : List Byte) (pos : Nat) : Int :=
  let n := numberAt body pos 2
  if n < 32768 then n else (n : Int) - 65536

/-- A small number in one character. -/
def byteOf (n : Nat) : Byte := BitVec.ofNat 8 n

/-- A flag, 00h or 01h. -/
def flagByte (b : Bool) : Byte := if b then 1 else 0

/-- A port. -/
def portByte (p : Port) : Byte := byteOf p.toNat

/-- A port or none, FFh for none. -/
def portOrNone : Option Port → Byte
  | some p => portByte p
  | none => 0xFF

/-- A port character, where it is in range. -/
def portOf (b : Byte) : Option Port := Port.ofNat? b.toNat

/-- A port set, bits 3 to 0; bits 7 to 4 are sent 0. -/
def portSetByte (s : PortSet) : Byte :=
  byteOf (s.p0.toNat + 2 * s.p1.toNat + 4 * s.p2.toNat + 8 * s.p3.toNat)

/-- A port set character; bits 7 to 4 are not examined. -/
def portSetOf (b : Byte) : PortSet := ⟨b.getLsbD 0, b.getLsbD 1, b.getLsbD 2, b.getLsbD 3⟩

/-- An instant in seven characters. -/
def instantBytes (count : Nat) : List Byte :=
  let c := calendarView count
  [byteOf c.year, byteOf c.month, byteOf c.day, byteOf c.hour, byteOf c.minute, byteOf c.second,
   byteOf c.fraction]

/-- The calendar view of seven characters from a position. -/
def instantAt (body : List Byte) (pos : Nat) : Calendar :=
  let f (i : Nat) : Nat := (byteAt body (pos + i)).toNat
  { year := f 0, month := f 1, day := f 2, hour := f 3, minute := f 4, second := f 5, fraction := f 6 }

/-- A handle in two characters. -/
def handleBytes (h : Handle) : List Byte := [byteOf h.slot.val, byteOf h.gen.val]

/-- The handle of two characters from a position. A slot above 63 or a generation above 15 names no
slot of the table, so no handle is current there. DEDUCED (notes/assumptions/15.md). -/
def handleAt (body : List Byte) (pos : Nat) : Option Handle :=
  let slot := (byteAt body pos).toNat
  let gen := (byteAt body (pos + 1)).toNat
  if hs : slot < 64 then if hg : gen < 16 then some ⟨⟨slot, hs⟩, ⟨gen, hg⟩⟩ else none else none

/-! ### Codes (R181, R183) -/

/-- The status codes of a response (R183). -/
inductive Status where
  | ok
  | busy
  | noSession
  | denied
  | noLease
  | leaseHeld
  | noRoom
  | badState
  | badValue
  | badHandle
  | notValid
  | incomplete
  | unknown
  | badLength
  deriving DecidableEq, Repr

def Status.code : Status → Byte
  | .ok => 0x00
  | .busy => 0x01
  | .noSession => 0x02
  | .denied => 0x03
  | .noLease => 0x04
  | .leaseHeld => 0x05
  | .noRoom => 0x06
  | .badState => 0x07
  | .badValue => 0x08
  | .badHandle => 0x09
  | .notValid => 0x0A
  | .incomplete => 0x0B
  | .unknown => 0x0C
  | .badLength => 0x0D

def Plan.kindCode : Plan → Byte
  | .once .. => 0x00
  | .periodic .. => 0x01
  | .calendar .. => 0x02

def EntryState.code : EntryState → Byte
  | .held => 0x01
  | .armed _ => 0x02
  | .searching => 0x03
  | .suspended _ => 0x04
  | .spent _ => 0x05

def SpentCause.code : SpentCause → Byte
  | .countDone => 0x01
  | .noMatch => 0x02
  | .epoch => 0x03

def EndedCause.code : EndedCause → Byte
  | .noMatch => 0x02
  | .epoch => 0x03
  | .purged => 0x04

def LeaseCause.code : LeaseCause → Byte
  | .expired => 0x01
  | .broken => 0x02
  | .reset => 0x03

def SessionEnd.code : SessionEnd → Byte
  | .none => 0x00
  | .close => 0x01
  | .kick => 0x02
  | .timeout => 0x03
  | .lineBreak => 0x04
  | .reset => 0x05
  | .standby => 0x06

def DeliveryState.code : DeliveryState → Byte
  | .closed => 0x00
  | .ready => 0x01
  | .stalled => 0x02

def RxError.code : RxError → Byte
  | .none => 0x00
  | .framing => 0x01
  | .gap => 0x02
  | .length => 0x03
  | .crc => 0x04
  | .aborted => 0x05
  | .overrun => 0x06

/-! ### Frames (R156, R157, R180) -/

/-- The four frame classes (R156). -/
inductive FrameClass where
  | request
  | response
  | notice
  | ack
  deriving DecidableEq, Repr

def FrameClass.code : FrameClass → Nat
  | .request => 0
  | .response => 1
  | .notice => 2
  | .ack => 3

def FrameClass.ofCode : Nat → FrameClass
  | 0 => .request
  | 1 => .response
  | 2 => .notice
  | _ => .ack

/-- The data bits of a header character (R180). -/
def headerByte (cls : FrameClass) (h : Header) : Byte :=
  byteOf (128 * h.spare.toNat + 32 * cls.code + 16 * h.retry.toNat + h.seq.val)

/-- The class and fields of a header character (R180). Every value forms a valid header. -/
def headerOf (b : Byte) : FrameClass × Header :=
  (FrameClass.ofCode (b.toNat / 32 % 4),
   { spare := b.getLsbD 7, retry := b.getLsbD 4, seq := ⟨b.toNat % 16, Nat.mod_lt _ (by decide)⟩ })

/-- The polynomial x^16 + x^12 + x^5 + 1 without its leading term (R157). -/
def crcPoly : BitVec 16 := 0x1021

/-- One bit of the CRC register's shift. -/
def crcShift (r : BitVec 16) : BitVec 16 := if r.msb then (r <<< 1) ^^^ crcPoly else r <<< 1

/-- The CRC register after one character, most significant bit first (R157). -/
def crcTake (r : BitVec 16) (b : Byte) : BitVec 16 :=
  (List.range 8).foldl (fun r _ => crcShift r) (r ^^^ (b.setWidth 16 <<< 8))

/-- The CRC of the data bits of characters, in frame order (R157). -/
def crcOf (bs : List Byte) : BitVec 16 := bs.foldl crcTake 0xFFFF

/-- The two CRC characters, high byte first. -/
def crcBytes (bs : List Byte) : List Byte :=
  [(crcOf bs).extractLsb' 8 8, (crcOf bs).extractLsb' 0 8]

/-- The data bits of the characters of a frame: header, length, body and CRC (R156). -/
def frameBytes (cls : FrameClass) (h : Header) (body : List Byte) : List Byte :=
  let front := headerByte cls h :: byteOf body.length :: body
  front ++ crcBytes front

/-! ### Requests (R182) -/

/-- The start of a ONCE or PERIODIC CREATE occupies 7 characters, or 4 when it is relative. -/
def startWidth (relative : Bool) : Nat := if relative then 4 else 7

/-- The length check of CREATE, from its kind and options characters (R182). -/
def createLengthOk (body : List Byte) : Bool :=
  if body.length < 3 then false
  else
    let relative := (byteAt body 2).getLsbD 0
    match (byteAt body 1).toNat with
    | 0 => body.length == 12 + startWidth relative
    | 1 => body.length == 16 + startWidth relative
    | 2 => body.length == 18
    | _ => true

/-- A pattern character: FFh is ANY, a value in range stands for itself, and any other value is out
of range (R181). -/
def patternField (b : Byte) (lo hi : Nat) : Option (Option Nat) :=
  if b = 0xFF then some none
  else if lo ≤ b.toNat ∧ b.toNat ≤ hi then some (some b.toNat) else none

/-- The six pattern characters from a position (R181). -/
def patternAt (body : List Byte) (pos : Nat) : Option Pattern := do
  let month ← patternField (byteAt body pos) 1 12
  let day ← patternField (byteAt body (pos + 1)) 1 31
  let weekday ← patternField (byteAt body (pos + 2)) 1 7
  let hour ← patternField (byteAt body (pos + 3)) 0 23
  let minute ← patternField (byteAt body (pos + 4)) 0 59
  let second ← patternField (byteAt body (pos + 5)) 0 59
  return { month, day, weekday, hour, minute, second }

/-- A start of either form from a position; an absolute start that is no real date is out of range
(R27). -/
def startAt (body : List Byte) (pos : Nat) (relative : Bool) : Option Start :=
  if relative then some (.relative (numberAt body pos 4))
  else
    let c := instantAt body pos
    if c.isReal then some (.absolute c.toCount) else none

/-- The step policy of the CREATE options character (R181). -/
def stepPolicyOf (options : Byte) : Option StepPolicy :=
  match options.toNat / 2 % 4 with
  | 0 => some .absolute
  | 1 => some .relative
  | _ => none

/-- The orphan policy of the CREATE options character (R181). -/
def orphanPolicyOf (options : Byte) : Option OrphanPolicy :=
  match options.toNat / 8 % 4 with
  | 0 => some .keep
  | 1 => some .release
  | _ => none

/-- The plan of a CREATE body, with the position after it; `none` where R27 finds a value out of
range. -/
def planOf (body : List Byte) : Option (Plan × Nat) :=
  let options := byteAt body 2
  let relative := options.getLsbD 0
  let after := 3 + startWidth relative
  match (byteAt body 1).toNat with
  | 0 => do
    let start ← startAt body 3 relative
    let policy ← stepPolicyOf options
    return (.once start policy, after)
  | 1 => do
    let start ← startAt body 3 relative
    let policy ← stepPolicyOf options
    let period := numberAt body after 4
    if period = 0 then none else return (.periodic start period policy, after + 4)
  | 2 => do
    let pattern ← patternAt body 3
    return (.calendar pattern, 9)
  | _ => none

/-- The repeat limit of an entry: 1 for ONCE, whatever the body gives (R22). -/
def Plan.limit (plan : Plan) (given : Nat) : Nat :=
  match plan with
  | .once .. => 1
  | _ => given

/-- The remaining count that goes with a repeat limit (R22). -/
def remainingOf (limit : Nat) : Option Nat := if limit = 0 then none else some limit

/-- The entry a CREATE body describes, HELD and owned by a port; `none` where the request is refused
BAD_VALUE (R27, R28). -/
def entryOf (owner : Port) (body : List Byte) : Option Entry := do
  let (plan, pos) ← planOf body
  let orphan ← orphanPolicyOf (byteAt body 2)
  let delivery := portSetOf (byteAt body (pos + 4))
  if delivery = PortSet.empty then none
  else
    let limit := plan.limit (numberAt body pos 2)
    return { state := .held, owner, plan, repeatLimit := limit, remaining := remainingOf limit,
             fireTotal := 0, tolerance := numberAt body (pos + 2) 2, delivery, orphan,
             wake := (byteAt body 2).getLsbD 5, tag := BitVec.ofNat 32 (numberAt body (pos + 5) 4) }

/-! ### Response bodies (R183) -/

/-- A refusal's body: the status alone. -/
def refusal (st : Status) : List Byte := [st.code]

/-- An OK body with its fields. -/
def okBody (fields : List Byte) : List Byte := Status.ok.code :: fields

/-- A pattern field as a character (R181). -/
def patternByte : Option Nat → Byte
  | none => 0xFF
  | some v => byteOf v

def Start.bytes : Start → List Byte
  | .absolute c => instantBytes c
  | .relative o => natBytes 4 o

def Start.isRelative : Start → Bool
  | .absolute _ => false
  | .relative _ => true

def StepPolicy.code : StepPolicy → Nat
  | .absolute => 0
  | .relative => 1

def OrphanPolicy.code : OrphanPolicy → Nat
  | .keep => 0
  | .release => 1

/-- The options character of QUERY PARAMETERS. Bits that R181 marks 'not examined' are drawn from
the free value: bits 7 and 6, and for MATCH also bits 2 to 0 (notes/assumptions/1.md). -/
def optionsByte (e : Entry) (free : Byte) : Byte :=
  let common := 8 * e.orphan.code + 32 * e.wake.toNat
  match e.plan with
  | .once start policy | .periodic start _ policy =>
    (free &&& 0xC0) ||| byteOf (start.isRelative.toNat + 2 * policy.code + common)
  | .calendar _ => (free &&& 0xC7) ||| byteOf common

def Plan.bytes : Plan → List Byte
  | .once start _ => start.bytes
  | .periodic start period _ => start.bytes ++ natBytes 4 period
  | .calendar p =>
    [patternByte p.month, patternByte p.day, patternByte p.weekday, patternByte p.hour,
     patternByte p.minute, patternByte p.second]

/-- The fields of QUERY PARAMETERS: the CREATE body from its kind character to its tag (R41, R183). -/
def parameterBytes (e : Entry) (free : Byte) : List Byte :=
  e.plan.kindCode :: optionsByte e free :: e.plan.bytes
    ++ natBytes 2 e.repeatLimit ++ natBytes 2 e.tolerance ++ [portSetByte e.delivery]
    ++ natBytes 4 e.tag.toNat

/-- The end cause of an entry as QUERY STATE sends it: 00h unless SPENT (R183). -/
def EntryState.endCauseByte : EntryState → Byte
  | .spent c => c.code
  | _ => 0

/-- Instant kind and instant of QUERY STATE: the due, the reference of a SEARCHING entry's job, or
NONE, sent as seven 00h characters (R40, R66, R183). -/
def queryInstant (st : EntryState) (ref : Option Reference) : List Byte :=
  match st with
  | .armed due => 0x01 :: instantBytes due
  | .suspended (some due) => 0x01 :: instantBytes due
  | .searching =>
    match ref with
    | some (.second r) => 0x02 :: instantBytes r
    | _ => 0x00 :: List.replicate 7 0
  | _ => 0x00 :: List.replicate 7 0

/-- The fields of QUERY STATE (R40, R183). -/
def stateBytes (h : Handle) (e : Entry) (ref : Option Reference) : List Byte :=
  handleBytes h ++ [e.state.code, e.plan.kindCode, portByte e.owner] ++ queryInstant e.state ref
    ++ natBytes 2 (e.remaining.getD 0) ++ natBytes 2 e.repeatLimit ++ natBytes 2 e.fireTotal
    ++ [e.state.endCauseByte, portSetByte e.delivery]

/-- The options in force, as OPEN and STATUS report them (R183). -/
def Session.optionBytes (x : Session) : List Byte :=
  [byteOf x.window, byteOf x.ackTimeout, byteOf x.retryLimit, byteOf x.keepalive, flagByte x.attention]

/-- The staging record as STAGE_TIME reports it: the present mask and the seven values (R183). -/
def Staging.bytes (r : Staging) : List Byte :=
  let bit (w : Nat) (f : Option Byte) : Nat := if f.isSome then w else 0
  byteOf (bit 1 r.year + bit 2 r.month + bit 4 r.day + bit 8 r.hour + bit 16 r.minute
      + bit 32 r.second + bit 64 r.fraction)
    :: [r.year.getD 0, r.month.getD 0, r.day.getD 0, r.hour.getD 0, r.minute.getD 0,
        r.second.getD 0, r.fraction.getD 0]

/-! ### Notice bodies (R184) -/

/-- The body of a notice: its kind, its flags character and the fields of its kind. -/
def Record.bytes (r : Record) : List Byte :=
  let flags (isFinal cancelled : Bool) : Byte :=
    byteOf (r.lossBefore.toNat + 2 * isFinal.toNat + 4 * cancelled.toNat)
  match r.content with
  | .firing missed h tag due count lateness isFinal =>
    (if missed then 0x02 else 0x01) :: flags isFinal false :: handleBytes h ++ natBytes 4 tag.toNat
      ++ instantBytes due ++ [byteOf count] ++ natBytes 2 lateness
  | .ended h tag cause =>
    0x03 :: flags false false :: handleBytes h ++ natBytes 4 tag.toNat ++ [cause.code]
  | .stepped instant delta cancelled =>
    0x04 :: flags false cancelled :: 0x01 :: instantBytes instant ++ intBytes 6 delta
  | .slewDone => [0x04, flags false false, 0x02]
  | .commitDropped => [0x04, flags false false, 0x03]
  | .epoch => [0x04, flags false false, 0x04]
  | .lease cause => [0x05, flags false false, cause.code]

/-- The frame of a notice record with its sequence and the retry flag (R88). -/
def noticeFrame (r : Record) (seq : Fin 16) (retry : Bool) : List Byte :=
  frameBytes .notice ⟨false, retry, seq⟩ r.bytes

/-- The frame of a response: the request's sequence, and the retry flag on a replay (R165, R167). -/
def responseFrame (seq : Fin 16) (r : Response) : List Byte :=
  frameBytes .response ⟨false, r.replay, seq⟩ r.body

end Sys2Proof.Machine
end

