-- ==== Sys2Proof/Machine/Flags.lean ====
section
/-! DEFINITION. The conditions and output levels the part computes from its state: standby and hold,
attention, WAKE, what may be received or sent, counts over the queues and the table. -/

namespace Sys2Proof.Machine

/-- A port's controller. -/
def State.port (s : State) (p : Port) : PortCtl := s.ports.get p

/-- A port's Notice Queue. -/
def State.queue (s : State) (p : Port) : NoticeQueue := s.queues.get p

/-- A slot of the Schedule Table. -/
def State.slot (s : State) (i : SlotNo) : Slot := s.table.slots.get i

/-- The entry of a slot, where it is not FREE. -/
def State.entry (s : State) (i : SlotNo) : Option Entry := (s.slot i).entry

/-- The entry a handle names, when the handle is current (R19). -/
def State.current (s : State) (h : Handle) : Option Entry :=
  if (s.slot h.slot).gen = h.gen then s.entry h.slot else none

/-- A slot holds an entry of a port. -/
def Slot.ownedBy (x : Slot) (p : Port) : Bool :=
  match x.entry with
  | some e => e.owner == p
  | none => false

/-- The owned count of a port (R20). -/
def State.ownedCount (s : State) (p : Port) : Nat := s.table.slots.toList.countP (·.ownedBy p)

/-- The sum of the four quotas (R20). -/
def quotaSum (q : Quad Nat) : Nat := q.p0 + q.p1 + q.p2 + q.p3

/-- The mode of the Schedule Table is NORMAL (R18). -/
def State.tableNormal (s : State) : Bool := s.table.mode == .normal

/-- A step claim of the Timebase is still on its way to the Schedule Table (R113). -/
def State.stepOnWay (s : State) : Bool :=
  s.transit.timeClaims.any fun m => match m.claim with
    | .step .. => true
    | .epochEnd => false

/-- The reference of the job of a slot, where it has one (R66). -/
def State.reference (s : State) (i : SlotNo) : Option Reference :=
  (s.search.jobs.find? (·.slot == i)).map (·.ref)

/-- The records of a queue, in flight or unsent (R82). -/
def NoticeQueue.size (q : NoticeQueue) : Nat := q.inFlight.length + q.unsent.length

/-- The standby condition (R172). -/
def standbyCond (pf vddGood : Bool) : Bool := pf || !vddGood

/-- The hold condition (R172). -/
def holdCond (pf rst vddGood : Bool) : Bool := standbyCond pf vddGood || rst

/-- Attention applies to a port: its session's attention mode is ON, or it has no session (R98). -/
def Session.attentionApplies (x : Session) : Bool := !x.isOpen || x.attention

/-- ATNn is asserted (R98). -/
def State.atn (s : State) (p : Port) : Bool :=
  s.standby.running && (s.port p).session.attentionApplies
    && (decide (0 < (s.queue p).size) || (s.port p).delivery.state == .stalled)

/-- WAKE is asserted (R179). -/
def State.wakeOut (s : State) : Bool := s.standby.wake

/-- TXn is held marking: no frame is being sent (R154, R170; its levels are Transmitter.levels). -/
def State.txMarking (s : State) (p : Port) : Bool := (s.port p).tx == .free

/-- The baud rate the BAUD straps set (R155). -/
def baudRate (straps : Fin 4) : Nat :=
  match straps.val with
  | 0 => 9600
  | 1 => 38400
  | 2 => 115200
  | _ => 230400

/-- The retained rail is taken from VDD, and from VBAT otherwise (R171). -/
def State.railFromVdd (s : State) : Bool := s.standby.vddGood

/-- The receiver of a port takes characters: the port domain runs and the line has marked since the
last break or start (R162, R170). -/
def State.listening (s : State) (p : Port) : Bool := s.standby.running && !(s.port p).awaitMark

/-- A response is ready at a port (R169). -/
def PortCtl.responseReady (c : PortCtl) : Option (Service × Response) :=
  match c.service with
  | some v => v.response.map fun r => (v, r)
  | none => none

/-- An instant that advances out of the second it is in when moved by an amount (R7). -/
def leavesSecond (instant amount : Nat) : Bool := decide (256 ≤ instant % 256 + amount)

/-- The lateness of a firing at a look (R53): 0 for a due that a gained advance passed over. -/
def latenessOf (instant : Nat) (passed : Option Nat) (due : Nat) : Nat :=
  if passed = some due then 0 else min Config.saturation (instant - due)

/-- A firing is MISSED: its lateness exceeds a limited tolerance (R54). -/
def missedBy (tolerance lateness : Nat) : Bool :=
  tolerance != Config.saturation && decide (tolerance < lateness)

/-- The re-send marks of a queue's in-flight records are all removed. -/
def NoticeQueue.unmarked (q : NoticeQueue) : NoticeQueue :=
  { q with inFlight := q.inFlight.map fun x => { x with marked := false } }

/-- Every in-flight record carries a re-send mark (R91). -/
def NoticeQueue.allMarked (q : NoticeQueue) : NoticeQueue :=
  { q with inFlight := q.inFlight.map fun x => { x with marked := true } }

end Sys2Proof.Machine
end

