-- ==== Sys2Proof/Machine/Pattern.lean ====
section
/-! DEFINITION. Calendar patterns and the search for their next match (R65, R67). -/

namespace Sys2Proof.Machine

/-- A pattern field that is ANY or equals a value. -/
def fieldMatches (field : Option Nat) (value : Nat) : Bool :=
  match field with
  | none => true
  | some v => v == value

/-- The date fields of a pattern hold on a day. -/
def Pattern.matchesDay (p : Pattern) (d : Nat) : Bool :=
  let c := calendarOf d 0 0
  fieldMatches p.month c.month && fieldMatches p.day c.day && fieldMatches p.weekday (weekdayOf d)

/-- The time fields of a pattern hold at a second of the day. -/
def Pattern.matchesTime (p : Pattern) (t : Nat) : Bool :=
  fieldMatches p.hour (t / 3600) && fieldMatches p.minute (t / 60 % 60) && fieldMatches p.second (t % 60)

/-- A pattern matches an instant: it is a whole second and every field that is not ANY equals the
same field of its calendar view (R65). -/
def Pattern.matchesInstant (p : Pattern) (count : Nat) : Bool :=
  count % 256 == 0 && p.matchesDay (count / Config.tuPerDay) && p.matchesTime (count / 256 % 86400)

/-- The earliest matching second of a day at or after a given second of it. Hours, minutes and
seconds are tried in ascending order, so the first found is the earliest. -/
def Pattern.firstTime (p : Pattern) (t0 : Nat) : Option Nat :=
  (List.range 24).findSome? fun h =>
    if fieldMatches p.hour h && decide (t0 ≤ h * 3600 + 3599) then
      (List.range 60).findSome? fun m =>
        if fieldMatches p.minute m && decide (t0 ≤ h * 3600 + m * 60 + 59) then
          (List.range 60).findSome? fun s =>
            if fieldMatches p.second s && decide (t0 ≤ h * 3600 + m * 60 + s) then
              some (h * 3600 + m * 60 + s)
            else none
        else none
    else none

/-- The earliest matching whole second over a number of days, the first of them from second `t0`. -/
def Pattern.firstFrom (p : Pattern) : Nat → Nat → Nat → Option Nat
  | 0, _, _ => none
  | fuel + 1, d, t0 =>
    let here := if p.matchesDay d then p.firstTime t0 else none
    match here with
    | some t => some ((d * 86400 + t) * 256)
    | none => p.firstFrom fuel (d + 1) 0

/-- The result of a search (R67): the earliest matching whole second at or after the reference, no
more than 1,461 days after it and within the epoch, or NO_MATCH. The day of the reference and the
1,461 that follow it contain the whole span. -/
def searchResult (p : Pattern) : Reference → Option Nat
  | .pastEpoch => none
  | .second f =>
    match p.firstFrom 1462 (f / Config.tuPerDay) (f / 256 % 86400) with
    | none => none
    | some s => if s ≤ f + Config.searchSpan ∧ s ≤ Config.lastSecond then some s else none

end Sys2Proof.Machine
end

