-- ==== Sys2Proof/Machine/Receiver.lean ====
section
/-! DEFINITION. The receiver of a host port, character by character (R158, R159). -/

namespace Sys2Proof.Machine

/-- What one character does: the receiver's next state, the error it records, and whether it
completes a frame that passes every check. -/
structure RxStep where
  rx : Receiver
  error : Option RxError
  accepted : Bool
  deriving DecidableEq, Repr

/-- The receiver goes on without an error. -/
def RxStep.goOn (rx : Receiver) : RxStep := ⟨rx, none, false⟩

/-- The receiver discards what it had, with an error. -/
def RxStep.fail (rx : Receiver) (e : RxError) : RxStep := ⟨rx, some e, false⟩

/-- The body characters still expected by a receiver that has gathered `got` (R158): not yet known
until the length has arrived. -/
def bodyExpected (got : List Byte) : Option Nat :=
  match got with
  | _ :: len :: body => some (len.toNat - body.length)
  | _ => none

/-- The CRC of the characters gathered before the two CRC characters equals the CRC received (R157). -/
def crcGood (got : List Byte) : Bool :=
  let front := got.take (got.length - 2)
  got.drop (got.length - 2) == crcBytes front

/-- One character in HUNT (R158). -/
def takeInHunt (ch : RxChar) : RxStep :=
  if ch.mark then
    if ch.stopGood then .goOn (.inFrame [ch.data]) else .fail .hunt .framing
  else .goOn .hunt

/-- One character in IN_FRAME, checked in the order of R159. -/
def takeInFrame (got : List Byte) (ch : RxChar) : RxStep :=
  if !ch.stopGood then .fail .hunt .framing
  else if ch.mark then .fail (.inFrame [ch.data]) .aborted
  else
    let got' := got ++ [ch.data]
    match got' with
    | [_, len] => if len.toNat ≤ Config.bodyRoom then .goOn (.inFrame got') else .fail .hunt .length
    | _ :: len :: rest =>
      if rest.length < len.toNat + 2 then .goOn (.inFrame got')
      else if crcGood got' then ⟨.hunt, none, true⟩ else .fail .hunt .crc
    | _ => .goOn (.inFrame got')

/-- One character (R158, R159). -/
def takeChar (rx : Receiver) (ch : RxChar) : RxStep :=
  match rx with
  | .hunt => takeInHunt ch
  | .inFrame got => takeInFrame got ch

/-- Characters in the order in which they arrive: the receiver after them, the last error recorded,
and whether any of them completed a frame. -/
def takeChars (rx : Receiver) : List RxChar → RxStep
  | [] => .goOn rx
  | ch :: rest =>
    let one := takeChar rx ch
    let more := takeChars one.rx rest
    ⟨more.rx, more.error.or one.error, one.accepted || more.accepted⟩

/-- The characters of a frame as the line carries them: the header with mark bit 1, the others with
mark bit 0, every stop bit good (R156). -/
def lineChars : List Byte → List RxChar
  | [] => []
  | header :: rest => ⟨header, true, true⟩ :: rest.map fun b => ⟨b, false, true⟩

/-- The levels of a character on its line, one for each bit time, marking as true: the start bit, the
data bits with the least significant first, the mark bit and the stop bit (R154). -/
def charLevels (ch : RxChar) : List Bool :=
  false :: (List.range 8).map ch.data.getLsbD ++ [ch.mark, ch.stopGood]

/-- The character that the levels sampled after a start bit form (R154). -/
def charOf (levels : List Bool) : RxChar :=
  ⟨BitVec.ofNat 8 ((levels.take 8).foldr (fun b n => b.toNat + 2 * n) 0), levels.getD 8 false,
    levels.getD 9 false⟩

/-- The line as the receiver follows it: between characters, with the level last seen, or inside a
character, with the levels sampled since its start bit (R154). -/
inductive LineState where
  | between (level : Bool)
  | inChar (got : List Bool)
  deriving DecidableEq, Repr

/-- One bit time of the line: a falling edge is a start bit, and the tenth level after it completes
the character (R154). -/
def takeLevel (line : LineState) (level : Bool) : LineState × List RxChar :=
  match line with
  | .between last => (if last && !level then .inChar [] else .between level, [])
  | .inChar got =>
    let got := got ++ [level]
    if got.length < 10 then (.inChar got, []) else (.between level, [charOf got])

/-- The characters that a stretch of the line forms, and the line after it (R154). -/
def takeLevels (line : LineState) : List Bool → LineState × List RxChar
  | [] => (line, [])
  | level :: rest =>
    let one := takeLevel line level
    let more := takeLevels one.1 rest
    (more.1, one.2 ++ more.2)

/-- The levels a port drives on TXn for the frame it is sending; TXn is marking otherwise (R154). -/
def Transmitter.levels : Transmitter → List Bool
  | .free => []
  | .response frame _ | .notice frame => (lineChars frame).flatMap charLevels

/-- The character that the first 11 bit times of a break form (R162). -/
def breakChar : RxChar := ⟨0, false, false⟩

end Sys2Proof.Machine
end

