-- ==== Sys2Proof/Machine/Ops.lean ====
section
/-! DEFINITION. The shared operations: handing claims and notices on, moving entries between the
lists, the Notice Queues, the end of a lease, teardown, the hold and the start of the port domain,
and taking a request into service. -/

namespace Sys2Proof.Machine

/-! ### Writing one block -/

/-- A port's controller changed by a function. -/
def State.onPort (s : State) (p : Port) (f : PortCtl → PortCtl) : State :=
  { s with ports := s.ports.set p (f (s.port p)) }

/-- A port's Notice Queue changed by a function. -/
def State.onQueue (s : State) (p : Port) (f : NoticeQueue → NoticeQueue) : State :=
  { s with queues := s.queues.set p (f (s.queue p)) }

/-- A slot of the Schedule Table replaced. -/
def State.setSlot (s : State) (i : SlotNo) (x : Slot) : State :=
  { s with table := { s.table with slots := s.table.slots.set i x } }

/-! ### Handing on -/

/-- The stamp up to which a block's next notice follows the notices of the block upstream (R81). -/
def Transit.afterOf (t : Transit) : NoticeSource → Nat
  | .table => t.tableAfter
  | .timebase => t.timebaseAfter
  | .lease => 0

/-- A block hands the Notice Unit a notice. -/
def State.handNotice (s : State) (src : NoticeSource) (content : Content) (address : Address) : State :=
  let t := s.transit
  { s with transit := { t with
      notices := t.notices ++ [⟨src, t.stamp, t.afterOf src, content, address⟩]
      stamp := t.stamp + 1 } }

/-- The Timebase hands the Schedule Table a claim. -/
def State.handTimeClaim (s : State) (fromAdvance : Bool) (claim : TimeClaim) : State :=
  let t := s.transit
  { s with transit := { t with
      timeClaims := t.timeClaims ++ [⟨t.stamp, fromAdvance, claim⟩], stamp := t.stamp + 1 } }

/-- The Lease Unit hands the Timebase a lease-end claim. -/
def State.handLeaseEnd (s : State) (former : Port) : State :=
  let t := s.transit
  { s with transit := { t with
      leaseEnds := t.leaseEnds ++ [⟨t.stamp, former⟩], stamp := t.stamp + 1 } }

/-- The Due Monitor's event of a source. -/
def LookMsg.isFrom (m : LookMsg) : LookSource → Bool
  | .timebase => m != .tableEvent
  | .table => m == .tableEvent

/-- An event for the Due Monitor (R49). -/
def State.handLook (s : State) (m : LookMsg) : State :=
  { s with transit := { s.transit with looks := s.transit.looks ++ [m] } }

/-- The Timebase presents an advance to the Due Monitor (R14). -/
def State.present (s : State) (instant : Nat) (passed : Option Nat) : State :=
  let t := s.transit
  { s with transit := { t with
      looks := t.looks ++ [.presented t.stamp instant passed], stamp := t.stamp + 1 } }

/-! ### The Due List (R46, R47) -/

/-- Ascending due count, and ascending slot among equal counts (R46). -/
def DueItem.before (a b : DueItem) : Bool :=
  decide (a.due < b.due) || (a.due == b.due && decide (a.slot < b.slot))

/-- A member joins at the position given by its due and slot (R47). -/
def insertDue (x : DueItem) : List DueItem → List DueItem
  | [] => [x]
  | y :: rest => if x.before y then x :: y :: rest else y :: insertDue x rest

/-- An entry joins the Due List; in NORMAL mode a look follows (R47, R49). -/
def State.joinDue (s : State) (i : SlotNo) (due : Nat) : State :=
  let s := { s with dueList := insertDue ⟨due, i⟩ s.dueList }
  if s.tableNormal then s.handLook .tableEvent else s

/-! ### The Search Queue and its engine (R68, R69) -/

/-- The engine takes up the head of a queue, or becomes IDLE. -/
def takeUp : List Job → Engine
  | [] => .idle
  | j :: _ => .running j.slot .searching

/-- A job joins the tail (R68); an IDLE engine takes it up (R69). -/
def Search.join (q : Search) (j : Job) : Search :=
  let jobs := q.jobs ++ [j]
  { jobs, engine := if q.engine = .idle then takeUp jobs else q.engine }

/-- The job of a slot leaves, from whatever position; its run is abandoned and the engine takes up
the next head (R69). -/
def Search.leave (q : Search) (i : SlotNo) : Search :=
  let jobs := q.jobs.filter (·.slot != i)
  { jobs, engine := match q.engine with
      | .running r ph => if r = i then takeUp jobs else .running r ph
      | e => e }

/-- A rescan resets the reference of a slot's job in place; a run of it is begun anew (R75). -/
def Search.resetRef (q : Search) (i : SlotNo) (ref : Reference) : Search :=
  { jobs := q.jobs.map fun j => if j.slot = i then { j with ref } else j
    engine := match q.engine with
      | .running r ph => if r = i then .running r .searching else .running r ph
      | e => e }

/-! ### Entries (R24, R36, R47) -/

/-- An entry leaves the Due List and the Search Queue, where it is a member. -/
def State.leaveLists (s : State) (i : SlotNo) : State :=
  { s with dueList := s.dueList.filter (·.slot != i), search := s.search.leave i }

/-- The entry record of a slot is written, and the entry leaves its list and joins the one of its
state (R24). `ref` is the search reference of an entry that becomes SEARCHING. -/
def State.place (s : State) (i : SlotNo) (e : Entry) (ref : Reference) : State :=
  let gen := (s.slot i).gen
  let s := (s.leaveLists i).setSlot i ⟨gen, some e⟩
  match e.state with
  | .armed due => s.joinDue i due
  | .searching => { s with search := s.search.join ⟨i, gen, ref⟩ }
  | _ => s

/-- Freeing an entry (R36). -/
def State.freeSlot (s : State) (i : SlotNo) : State :=
  let gen := (s.slot i).gen
  (s.leaveLists i).setSlot i ⟨gen + 1, none⟩

/-- The ports an ENDED notice goes to: the delivery set and the owner (R80). -/
def Entry.endedSet (e : Entry) : PortSet := PortSet.add e.delivery e.owner

/-- The Schedule Table hands on an ENDED notice for an entry. -/
def State.handEnded (s : State) (h : Handle) (e : Entry) (cause : EndedCause) : State :=
  s.handNotice .table (.ended h e.tag cause) (.ports e.endedSet)

/-- A release claim applied to one slot: an entry of the port with policy RELEASE is freed (R38). -/
def State.releaseSlot (s : State) (p : Port) (i : SlotNo) : State :=
  match s.entry i with
  | some e => if e.owner = p ∧ e.orphan = .release then s.freeSlot i else s
  | none => s

/-- A release claim applied: the port's RELEASE entries are freed in ascending slot order (R38). -/
def State.releaseEntries (s : State) (p : Port) : State :=
  (List.finRange 64).foldl (fun s i => s.releaseSlot p i) s

/-! ### The Notice Queue (R81 to R85) -/

/-- A record is a FIRE or MISSED record of a handle. -/
def Record.firesFor (r : Record) (h : Handle) : Bool :=
  match r.content with
  | .firing _ h' .. => h' == h
  | _ => false

/-- A FIRE or MISSED record takes in a later firing of its handle (R83). -/
def Record.coalesce (r : Record) (missed : Bool) (count : Nat) (isFinal : Bool) : Record :=
  match r.content with
  | .firing m h tag due c late _ =>
    { r with content := .firing (m || missed) h tag due (min Config.countSaturation (c + count)) late isFinal }
  | _ => r

/-- The first record of a handle in a list takes a firing in; `none` when there is no such record. -/
def coalesceFirst (h : Handle) (missed : Bool) (count : Nat) (isFinal : Bool) :
    List Record → Option (List Record)
  | [] => none
  | r :: rest =>
    if r.firesFor h then some (r.coalesce missed count isFinal :: rest)
    else (coalesceFirst h missed count isFinal rest).map (r :: ·)

/-- A notice coalesces into the unsent records of a queue, where it can (R83). -/
def NoticeQueue.tryCoalesce (q : NoticeQueue) : Content → Option (List Record)
  | .firing missed h _ _ count _ isFinal => coalesceFirst h missed count isFinal q.unsent
  | _ => none

/-- A notice is placed in one queue: it coalesces, joins, or is lost (R81, R83, R84). -/
def NoticeQueue.placeNotice (q : NoticeQueue) (content : Content) : NoticeQueue :=
  match q.tryCoalesce content with
  | some unsent => { q with unsent }
  | none =>
    if q.size < Config.queueRoom then
      { q with unsent := q.unsent ++ [⟨content, q.loss⟩], loss := false }
    else { q with loss := true }

/-- The merging of R85 over unsent records: each FIRE or MISSED record goes into the earliest kept
record of its handle, and the loss-before of a record that leaves passes to the one that followed
it. `kept` holds the records already passed, `carry` a loss-before still to be passed on. The
second component says that no record followed, so that the LOSS flag is set again. -/
def mergeUnsent (kept : List Record) (carry : Bool) : List Record → List Record × Bool
  | [] => (kept, carry)
  | r :: rest =>
    let r' := { r with lossBefore := r.lossBefore || carry }
    let merged := match r.content with
      | .firing missed h _ _ count _ isFinal => coalesceFirst h missed count isFinal kept
      | _ => none
    match merged with
    | some kept' => mergeUnsent kept' r'.lossBefore rest
    | none => mergeUnsent (kept ++ [r']) false rest

/-- The in-flight records of a queue are returned to unsent (R85). -/
def NoticeQueue.returnToUnsent (q : NoticeQueue) : NoticeQueue :=
  let m := mergeUnsent [] false (q.inFlight.map (·.record) ++ q.unsent)
  { inFlight := [], unsent := m.1, loss := q.loss || m.2 }

/-- A queue flushed: every record is discarded and the LOSS flag clears (R95). -/
def NoticeQueue.flushed : NoticeQueue := { inFlight := [], unsent := [], loss := false }

/-- The resynchronisation of a port's delivery (R94). -/
def State.resync (s : State) (p : Port) : State :=
  (s.onQueue p NoticeQueue.returnToUnsent).onPort p fun c =>
    { c with delivery := { state := .ready, nextSeq := 0, retries := 0, timer := none } }

/-! ### The end of the lease (R101) -/

/-- The lease ends, with the LEASE notice of its cause (none for RELEASE) and the lease-end claim. -/
def State.endLease (s : State) (cause : Option LeaseCause) : State :=
  match s.lease.holder with
  | none => s
  | some p =>
    let s := { s with lease := { holder := none, remaining := 0 } }
    let s := match cause with
      | some c => s.handNotice .lease (.lease c) (.ports (PortSet.single p))
      | none => s
    s.handLeaseEnd p

/-- A session-end claim taken at the Lease Unit (R109). -/
def State.takeSessionEnd (s : State) (p : Port) : State :=
  if s.lease.holder = some p then s.endLease (some .reset) else s

/-- The session-end claims of a port that are on their way are taken, since a Port Controller hands
them on ahead of the port's next request to the Lease Unit (R109). -/
def State.settleSessionEnds (s : State) (p : Port) : State :=
  if s.transit.sessionEnds.contains p then
    ({ s with transit := { s.transit with
        sessionEnds := s.transit.sessionEnds.filter (· != p) } }).takeSessionEnd p
  else s

/-- A lease-end claim taken at the Timebase (R102). -/
def State.takeLeaseEnd (s : State) (m : LeaseEndMsg) : State :=
  let s := { s with transit := { s.transit with timebaseAfter := m.stamp } }
  match s.time.slot with
  | .empty => s
  | .pending _ q =>
    ({ s with time := { s.time with slot := .empty } }).handNotice .timebase .commitDropped
      (.ports (PortSet.single q))

/-- The lease-end claims on their way are taken, since the Lease Unit hands them on ahead of the
request that now passes its gate (R103). DEDUCED (notes/assumptions/6.md). -/
def State.settleLeaseEnds (s : State) : State :=
  let claims := s.transit.leaseEnds
  claims.foldl State.takeLeaseEnd { s with transit := { s.transit with leaseEnds := [] } }

/-! ### Sessions -/

/-- A response ready for the request in service at a port (R165). -/
def PortCtl.respond (c : PortCtl) (body : List Byte) : PortCtl :=
  { c with service := c.service.map fun v => { v with response := some ⟨body, false⟩ } }

/-- The verdict of the request in service at a port (R165). -/
def State.respond (s : State) (p : Port) (body : List Byte) : State :=
  s.onPort p fun c => c.respond body

/-- A port's controller after a teardown: session CLOSED with the cause, cache emptied, staging
cleared, delivery CLOSED, no request in service (R96, R147, R148). -/
def PortCtl.tornDown (c : PortCtl) (cause : SessionEnd) : PortCtl :=
  { c with
    session := Session.closed cause, delivery := Delivery.atReset, staging := Staging.absent
    service := none, cache := none
    tx := match c.tx with
      | .response f _ => .response f false
      | t => t }

/-- The teardown of a port's session, with the claims it hands on (R147). -/
def State.teardown (s : State) (p : Port) (cause : SessionEnd) : State :=
  let s := (s.onQueue p NoticeQueue.returnToUnsent).onPort p fun c => c.tornDown cause
  { s with transit := { s.transit with
      sessionEnds := s.transit.sessionEnds ++ [p]
      releases := s.transit.releases ++ [p]
      kicks := s.transit.kicks.map fun k => if k.sender = p then { k with live := false } else k } }

/-- The keepalive count reloaded by an accepted frame (R146). -/
def Session.reloaded (x : Session) : Session :=
  if x.isOpen ∧ 0 < x.keepalive then { x with keepCount := some x.keepalive } else x

/-! ### The port domain (R173, R175) -/

/-- A port's controller held in reset: every item at its reset value, RDYn as last sampled, and the
last session end kept until the start writes it (R149, R170). -/
def PortCtl.heldReset (c : PortCtl) : PortCtl :=
  { PortCtl.atReset c.session.lastEnd with rdy := c.rdy }

/-- The port domain takes the hold (R173). DEDUCED: KICKs and session-end claims on their way are
dropped (notes/assumptions/10.md). DESIGN CHOICE: oscillator seconds and ticks marked and not yet
delivered stay due (notes/assumptions/22.md). -/
def State.holdDomain (s : State) : State :=
  let s := s.endLease (some .reset)
  { s with
    ports := s.ports.map PortCtl.heldReset
    queues := s.queues.map NoticeQueue.returnToUnsent
    search := { s.search with engine := .paused }
    transit := { s.transit with kicks := [], sessionEnds := [] } }

/-- The last session end a start writes (R149). -/
def StartCause.sessionEnd : StartCause → SessionEnd
  | .none => .none
  | .reset => .reset
  | .standby => .standby

/-- A port's controller at the start of the port domain (R175). -/
def PortCtl.started (c : PortCtl) (cause : StartCause) (marking : Bool) : PortCtl :=
  { PortCtl.atReset cause.sessionEnd with awaitMark := !marking, rdy := c.rdy }

/-- The port domain starts (R175). DESIGN CHOICE: oscillator seconds and ticks marked before the start
and not yet delivered stay due, so that one can count down a lease acquired, a keepalive loaded or an
ack timer started after it (notes/assumptions/22.md). -/
def State.startDomain (s : State) (straps : Straps) : State :=
  let cause := s.standby.cause
  let f (p : Port) : PortCtl := (s.port p).started cause (straps.marking.get p)
  { s with
    ports := ⟨f .p0, f .p1, f .p2, f .p3⟩
    supervisor := straps.supv
    baud := straps.baud
    lease := { holder := none, remaining := 0 }
    search := { s.search with engine := takeUp s.search.jobs }
    standby := { s.standby with running := true, cause := .reset } }

/-- The start cause while the domain stays or becomes HELD (R172). -/
def Standby.heldCause (b : Standby) (standby : Bool) : StartCause :=
  if b.running then (if standby then .standby else .reset)
  else if b.cause = .none then .none
  else if standby && !b.flag then .standby else b.cause

/-- A change of a filtered input or of VDD-good: the standby flag, the WAKE latch, the port-domain
state and the start cause change together (R172). -/
def State.inputs (s : State) (pf rst vddGood : Bool) (straps : Straps) : State :=
  let b := s.standby
  let standby := standbyCond pf vddGood
  let hold := holdCond pf rst vddGood
  let b' := { b with pf, rst, vddGood, flag := standby, wake := b.wake && standby }
  if hold then
    let s' := { s with standby := { b' with running := false, cause := b.heldCause standby } }
    if b.running then s'.holdDomain else s'
  else
    let s' := { s with standby := b' }
    if b.running then s' else s'.startDomain straps

/-! ### The input filters (R172) -/

/-- Four consecutive samples have shown the other level. -/
def Pin.due (x : Pin) : Bool := x.run == 4

/-- A pin is sampled beside the filtered level. A change that is due stays due until it is taken. -/
def Pin.sample (x : Pin) (filtered : Bool) : Pin :=
  if x.due then x else { x with run := if x.level = filtered then 0 else x.run + 1 }

/-- A change of the filtered level to `level` is taken. One that no four samples brought about is the
sender's, and the pin then shows its level. DESIGN CHOICE (notes/assumptions/8.md). -/
def Pin.taken (x : Pin) (level : Bool) : Pin := ⟨if x.due then x.level else level, 0⟩

/-- Both pins are sampled, at a crystal cycle. -/
def Standby.sampled (b : Standby) : Standby :=
  { b with pfPin := b.pfPin.sample b.pf, rstPin := b.rstPin.sample b.rst }

/-- The levels at the straps and RXn as a command at a pin gives them. -/
def State.atPins (s : State) (straps : Straps) (b : Standby) : State :=
  { s with standby := b, pins := straps }

/-! ### Accepted frames and requests (R163 to R167) -/

/-- The receiver of a port has taken the whole of a frame and returns to HUNT. A frame it was
gathering that is not a part of this one was aborted by this one's header (R159). DESIGN CHOICE
(notes/assumptions/7.md). -/
def PortCtl.frameTaken (c : PortCtl) (bytes : List Byte) : PortCtl :=
  match c.rx with
  | .hunt => c
  | .inFrame got =>
    { c with rx := .hunt, lastError := if got.isPrefixOf bytes then c.lastError else .aborted }

/-- The length check of the receiver fails: the frame is discarded with LENGTH (R159). -/
def PortCtl.lengthError (c : PortCtl) : PortCtl := { c with rx := .hunt, lastError := .length }

/-- The request is answered from the response cache (R165, check 1). -/
def PortCtl.replays (c : PortCtl) (h : Header) : Option (List Byte) :=
  match c.cache with
  | some k => if h.retry ∧ k.seq = h.seq then some k.body else none
  | none => none

/-- A request taken into service, with the keepalive count reloaded (R163, R164). -/
def PortCtl.takenIn (c : PortCtl) (h : Header) (body : List Byte) (response : Option Response) :
    PortCtl :=
  { c with session := c.session.reloaded, service := some ⟨h, body, response⟩ }

/-- The checks of R165 on a request whose code is defined, and its hand-over to the owning block,
which is `act`. A request that finds another in service is an overrun (R164). -/
def serve (p : Port) (h : Header) (body : List Byte) (lengthOk needsSession : Bool)
    (act : State → State) (s : State) : State :=
  if !s.listening p then s
  else if !bodyFits body then s.onPort p PortCtl.lengthError
  else
    let c := (s.port p).frameTaken (frameBytes .request h body)
    if c.service.isSome then s.onPort p fun _ => { c with lastError := .overrun }
    else match c.replays h with
      | some cached => s.onPort p fun _ => c.takenIn h body (some ⟨cached, true⟩)
      | none =>
        let s := s.onPort p fun _ => c.takenIn h body none
        if !lengthOk then s.respond p (refusal .badLength)
        else if needsSession && !(s.port p).session.isOpen then s.respond p (refusal .noSession)
        else act s

/-- A request that a port has taken into service and not handed on waits there (R148, R165). A KICK
on its way to the named port has been handed on (R151). -/
def State.waits (s : State) (p : Port) (h : Header) (body : List Byte) : Bool :=
  (s.port p).service == some ⟨h, body, none⟩ && !s.transit.kicks.any fun k => k.live && k.sender == p

/-- A request command in its phase (R148, R165): `serve` from acceptance to verdict, the acceptance
with its checks alone, or the handing on of the request if it waits, which its owning block then
carries out. DEDUCED and DESIGN CHOICE (notes/assumptions/6.md). -/
def request (phase : Phase) (p : Port) (h : Header) (body : List Byte) (lengthOk needsSession : Bool)
    (act : State → State) (s : State) : State :=
  match phase with
  | .whole => serve p h body lengthOk needsSession act s
  | .accepted => serve p h body lengthOk needsSession id s
  | .handedOn =>
    if s.standby.running && s.waits p h body && lengthOk
        && (!needsSession || (s.port p).session.isOpen) then act s
    else s

/-- The lease gate (R103): the port's own session-end claims reach the Lease Unit first (R109); a
port that does not hold the lease is refused NO_LEASE; a request that passes reaches the Timebase
behind the lease-end claims already handed on. -/
def leaseGate (p : Port) (act : State → State) (s : State) : State :=
  let s := s.settleSessionEnds p
  if s.lease.holder = some p then act s else s.respond p (refusal .noLease)

/-- A request that passed the gate goes on to the Timebase (R103). -/
def throughGate (p : Port) (act : State → State) (s : State) : State :=
  leaseGate p (fun s => act s.settleLeaseEnds) s

/-! ### The Timebase -/

/-- A step of the instant (R114, R117): the instant set, VALID true, a slew cancelled, TIME STEPPED
and then the step claim handed on. -/
def State.stepTime (s : State) (fromAdvance : Bool) (instant : Nat) (delta : Int) : State :=
  let cancelled := s.time.slew != .idle
  let s := { s with time := { s.time with instant, valid := true, slew := .idle, slot := .empty } }
  (s.handNotice .timebase (.stepped instant delta cancelled) .openSessions).handTimeClaim fromAdvance
    (.step delta instant)

/-- TIME SLEW_DONE handed on (R119, R120). -/
def State.handSlewDone (s : State) : State := s.handNotice .timebase .slewDone .openSessions

end Sys2Proof.Machine
end

