-- ==== Sys2Proof/Machine/Firing.lean ====
section
/-! DEFINITION. The Due Monitor's looks, firing claims and wake requests
(spec/03_the_due_list_and_firing.md). -/

namespace Sys2Proof.Machine

/-- The occurrences a PERIODIC entry with due `due` and period `period` represents at a look (R56). -/
def occurrences (instant due period : Nat) : Nat := (instant - due) / period + 1

/-- A remaining count reaches 0 when lowered by k (R56); an unlimited entry has none. -/
def runsOut (remaining : Option Nat) (k : Nat) : Bool :=
  match remaining with
  | none => false
  | some r => decide (r ≤ k)

/-- The occurrences a firing represents, by kind (R55, R56, R58). -/
def Plan.occurrences (plan : Plan) (instant due : Nat) : Nat :=
  match plan with
  | .periodic _ period _ => Machine.occurrences instant due period
  | .once .. | .calendar _ => 1

/-- The next state after k occurrences from a due, for an entry whose remaining count they do not use
up; a ONCE entry has no further occurrence (R55 to R58). -/
def Plan.onward (plan : Plan) (due k : Nat) : FiredState :=
  match plan with
  | .once .. => .spent .countDone
  | .periodic _ period _ =>
    let next := due + k * period
    if Config.lastInstant < next then .spent .epoch else .armed next
  | .calendar _ => .search (referenceAfterFiring due)

/-- The next state of a firing of k occurrences: COUNT_DONE when they use up what remains (R22, R56,
R58). -/
def Entry.nextState (e : Entry) (due k : Nat) : FiredState :=
  if runsOut e.remaining k then .spent .countDone else e.plan.onward due k

/-- A firing is final: it leaves the entry SPENT (R59). -/
def FiredState.isFinal : FiredState → Bool
  | .spent _ => true
  | _ => false

/-- The firing claim a look computes for an entry (R51 to R58). -/
def firingClaimFor (handle : Handle) (e : Entry) (instant : Nat) (passed : Option Nat) (due : Nat) :
    FiringClaim :=
  let late := latenessOf instant passed due
  let k := e.plan.occurrences instant due
  let next := e.nextState due k
  { handle, due, missed := missedBy e.tolerance late, occurrences := k, lateness := late
    isFinal := next.isFinal, next }

/-- The claims of a look at an instant: the leading entries of the Due List that it has reached, in
list order (R50). -/
def lookClaims (s : State) (instant : Nat) (passed : Option Nat) : List FiringClaim :=
  (s.dueList.takeWhile fun x => decide (x.due ≤ instant)).filterMap fun x =>
    (s.entry x.slot).map fun e => firingClaimFor ⟨x.slot, (s.slot x.slot).gen⟩ e instant passed x.due

/-- A look answering an event, with the stamp its claims carry (R49, R50, R52): none in RESCAN. -/
def lookAt (m : LookMsg) (s : State) : State :=
  let (stamp, instant, passed) := match m with
    | .presented stamp instant passed => (stamp, instant, passed)
    | .tableEvent => (s.transit.stamp, s.time.instant, none)
  if s.tableNormal then
    { s with transit := { s.transit with
        firings := s.transit.firings ++ (lookClaims s instant passed).map fun c => ⟨stamp, c⟩ } }
  else s

/-- LOOK: the Due Monitor looks at the head on the oldest event of a source (R49, R50). -/
def execLook (src : LookSource) (s : State) : Host.Outcome State Fault Refusal :=
  .next (match s.transit.looks.find? (·.isFrom src) with
    | none => s
    | some m => lookAt m { s with transit := { s.transit with looks := s.transit.looks.erase m } })

/-- The state a fired entry takes (R51). -/
def FiredState.entryState : FiredState → EntryState
  | .armed due => .armed due
  | .search _ => .searching
  | .spent c => .spent c

/-- The search reference of a fired entry that goes to search (R58). -/
def FiredState.reference : FiredState → Reference
  | .search ref => ref
  | _ => .pastEpoch

/-- The next state a claim gives an entry: COUNT_DONE when it brings remaining to 0 (R22), and otherwise
the claim's (R51). Where the claim's is COUNT_DONE and some remain, the remaining count having been set
anew since its look, the entry goes on from the claim's due (R56, R58). DESIGN CHOICE, the last alone
(notes/assumptions/14.md). -/
def FiringClaim.nextFor (c : FiringClaim) (e : Entry) : FiredState :=
  if runsOut e.remaining c.occurrences then .spent .countDone
  else if c.next = .spent .countDone then e.plan.onward c.due c.occurrences
  else c.next

/-- A claim as it is applied to an entry: with the next state it gives and the final flag that goes with it (R59). -/
def FiringClaim.settled (c : FiringClaim) (e : Entry) : FiringClaim :=
  if c.nextFor e = c.next then c else { c with next := c.nextFor e, isFinal := (c.nextFor e).isFinal }

/-- An entry after a firing: its next state, remaining lowered and fire total raised (R51, R56). -/
def Entry.fired (e : Entry) (c : FiringClaim) : Entry :=
  { e with state := c.next.entryState, remaining := e.remaining.map (· - c.occurrences)
           fireTotal := min Config.saturation (e.fireTotal + c.occurrences) }

/-- The notice of an applied firing (R59). -/
def FiringClaim.notice (c : FiringClaim) (tag : BitVec 32) : Content :=
  .firing c.missed c.handle tag c.due (min Config.countSaturation c.occurrences) c.lateness c.isFinal

/-- A wake request handed to the Standby Controller for an entry with the wake flag (R61). -/
def State.handWake (s : State) (wake : Bool) : State :=
  if wake then { s with transit := { s.transit with wakes := s.transit.wakes + 1 } } else s

/-- A firing claim applied: the notice, the wake request and, where the epoch ends the entry, the
ENDED notice are handed on in that order (R51, R57, R59, R61). -/
def applyFiring (c : FiringClaim) (e : Entry) (s : State) : State :=
  let s := s.place c.handle.slot (e.fired c) c.next.reference
  let s := s.handNotice .table (c.notice e.tag) (.ports e.delivery)
  let s := s.handWake e.wake
  if c.next = .spent .epoch then s.handEnded c.handle e .epoch else s

/-- FIRING_CLAIM: the Schedule Table takes the oldest firing claim, and applies or discards it (R51). -/
def execFiringClaim (s : State) : Host.Outcome State Fault Refusal :=
  .next (match s.transit.firings with
    | [] => s
    | m :: rest =>
      let s := { s with transit := { s.transit with firings := rest } }
      match s.current m.claim.handle with
      | none => s
      | some e => if e.state = .armed m.claim.due then applyFiring (m.claim.settled e) e s else s)

/-- WAKE_REQUEST: the Standby Controller takes a wake request (R61, R179). -/
def execWakeRequest (s : State) : Host.Outcome State Fault Refusal :=
  .next (if s.transit.wakes = 0 then s
    else { s with transit := { s.transit with wakes := s.transit.wakes - 1 }
                  standby := { s.standby with wake := s.standby.wake || s.standby.flag } })

end Sys2Proof.Machine
end

