-- ==== Sys2Proof/Machine/Session.lean ====
section
/-! DEFINITION. The requests a Port Controller takes itself, KICK at the named port and the keepalive
timeout (spec/09_sessions_and_supervision.md). -/

namespace Sys2Proof.Machine

/-- A named option of OPEN, or its default where the mask does not name it (R140, R182). -/
def openOption (body : List Byte) (bit pos default : Nat) : Nat :=
  if (byteAt body 1).getLsbD bit then (byteAt body pos).toNat else default

/-- The session record an OPEN body asks for; `none` where a named option is out of range (R140). -/
def openSession (body : List Byte) (lastEnd : SessionEnd) : Option Session :=
  let window := openOption body 0 2 2
  let ackTimeout := openOption body 1 3 50
  let retryLimit := openOption body 2 4 3
  let keepalive := openOption body 3 5 0
  let attention := openOption body 4 6 1
  if 1 ≤ window ∧ window ≤ 4 ∧ 1 ≤ ackTimeout ∧ retryLimit ≤ 7 ∧ attention ≤ 1 then
    some { isOpen := true, window, ackTimeout, retryLimit, keepalive, attention := attention == 1
           keepCount := if keepalive = 0 then none else some keepalive, lastEnd }
  else none

/-- The fields of an OPEN response (R140, R183). DESIGN CHOICE (notes/assumptions/21.md): the record count
and the LOSS flag are those of the queue it is given, which `openAct` gives after the merging of R85. -/
def openFields (s : State) (p : Port) : List Byte :=
  let x := (s.port p).session
  [portByte p, portByte s.supervisor] ++ x.optionBytes
    ++ [byteOf (s.queue p).size, flagByte (s.queue p).loss, x.lastEnd.code]

/-- OPEN carried out, or refused BAD_VALUE (R140, R141). DESIGN CHOICE (notes/assumptions/21.md): the
response's fields are taken after the resynchronisation. -/
def openAct (p : Port) (body : List Byte) (s : State) : State :=
  match openSession body (s.port p).session.lastEnd with
  | none => s.respond p (refusal .badValue)
  | some x =>
    let s := s.onPort p fun c => { c with cache := none }
    let s := if (byteAt body 1).getLsbD 7 then s.onQueue p fun _ => NoticeQueue.flushed else s
    let s := (s.resync p).onPort p fun c => { c with session := x }
    s.respond p (okBody (openFields s p))

/-- OPEN (R140, R141). -/
def execOpen (p : Port) (h : Header) (args : List Byte) (s : State)
    (phase : Phase := .whole) : Host.Outcome State Fault Refusal :=
  let body := 0x10 :: args
  .next (request phase p h body (body.length == 7) false (openAct p body) s)

/-- A session torn down with cause CLOSE, whose request is answered from the emptied cache (R142). -/
def closeWith (p : Port) (h : Header) (body response : List Byte) (s : State) : State :=
  (s.teardown p .close).onPort p fun c => { c with service := some ⟨h, body, some ⟨response, false⟩⟩ }

/-- CLOSE (R142). -/
def execClose (p : Port) (h : Header) (args : List Byte) (s : State)
    (phase : Phase := .whole) : Host.Outcome State Fault Refusal :=
  let body := 0x11 :: args
  .next (request phase p h body (body.length == 1) true (closeWith p h body (okBody [])) s)

/-- PING (R143). -/
def execPing (p : Port) (h : Header) (args : List Byte) (s : State)
    (phase : Phase := .whole) : Host.Outcome State Fault Refusal :=
  let body := 0x12 :: args
  .next (request phase p h body (decide (body.length ≤ 17)) true (fun s => s.respond p (okBody args)) s)

/-- The fields of a STATUS response (R145, R183). DESIGN CHOICE: the lease is read as it stands, which may
be ahead of the port's own session-end claim on its way (notes/assumptions/24.md). -/
def statusFields (s : State) (p : Port) : List Byte :=
  let c := s.port p
  let q := s.queue p
  [portByte p, portByte s.supervisor, flagByte c.session.isOpen] ++ c.session.optionBytes
    ++ [byteOf (c.session.keepCount.getD 0), c.session.lastEnd.code, c.delivery.state.code,
        byteOf q.inFlight.length, byteOf q.unsent.length, byteOf c.delivery.nextSeq.val,
        byteOf c.delivery.retries, flagByte q.loss, c.lastError.code, portOrNone s.lease.holder,
        byteOf s.lease.remaining]

/-- STATUS (R145). -/
def execStatus (p : Port) (h : Header) (args : List Byte) (s : State)
    (phase : Phase := .whole) : Host.Outcome State Fault Refusal :=
  let body := 0x13 :: args
  .next (request phase p h body (body.length == 1) false
    (fun s => (s.respond p (okBody (statusFields s p))).onPort p fun c => { c with lastError := .none }) s)

/-- RESYNC (R144). -/
def execResync (p : Port) (h : Header) (args : List Byte) (s : State)
    (phase : Phase := .whole) : Host.Outcome State Fault Refusal :=
  let body := 0x14 :: args
  .next (request phase p h body (body.length == 1) true
    (fun s =>
      let s := s.resync p
      s.respond p (okBody [byteOf (s.queue p).size])) s)

/-- KICK at the supervisor's controller (R151). -/
def kickAct (p : Port) (h : Header) (body : List Byte) (s : State) : State :=
  if p ≠ s.supervisor then s.respond p (refusal .denied)
  else match portOf (byteAt body 1) with
    | none => s.respond p (refusal .badValue)
    | some q =>
      if q = p then closeWith p h body (okBody [0x01]) s
      else { s with transit := { s.transit with kicks := s.transit.kicks ++ [⟨p, q, true⟩] } }

/-- KICK (R151). -/
def execKick (p : Port) (h : Header) (args : List Byte) (s : State)
    (phase : Phase := .whole) : Host.Outcome State Fault Refusal :=
  let body := 0x50 :: args
  .next (request phase p h body (body.length == 2) true (kickAct p h body) s)

/-- The verdict of a KICK reaches the supervisor's controller while its request is in service (R148,
R151). -/
def kickVerdict (k : KickMsg) (body : List Byte) (s : State) : State :=
  if k.live then s.respond k.sender body else s

/-- KICK_AT_NAMED_PORT: the named port's controller takes the oldest KICK on its way to it (R151). -/
def execKickAtNamedPort (q : Port) (s : State) : Host.Outcome State Fault Refusal :=
  .next (match s.transit.kicks.find? (·.named == q) with
    | none => s
    | some k =>
      let s := { s with transit := { s.transit with kicks := s.transit.kicks.erase k } }
      if (s.port q).session.isOpen then kickVerdict k (okBody [0x01]) (s.teardown q .kick)
      else kickVerdict k (refusal .badState) s)

/-- An oscillator second at a Port Controller (R146). -/
def portSecond (p : Port) (s : State) : State :=
  let c := s.port p
  if s.standby.running ∧ c.session.isOpen then
    match c.session.keepCount with
    | none => s
    | some 0 => s.teardown p .timeout
    | some (n + 1) => s.onPort p fun c => { c with session := { c.session with keepCount := some n } }
  else s

/-- The mark of an oscillator second at a Port Controller is taken (R4). -/
def takePortSecondMark (p : Port) (s : State) : State :=
  let m := s.transit.marks
  { s with transit := { s.transit with
      marks := { m with portSeconds := m.portSeconds.set p (m.portSeconds.get p - 1) } } }

/-- KEEPALIVE_TIMEOUT: the oscillator second that finds the keepalive count at 0 (R146). -/
def execKeepaliveTimeout (p : Port) (s : State) : Host.Outcome State Fault Refusal :=
  .next (if (s.port p).session.keepCount = some 0 then portSecond p (takePortSecondMark p s) else s)

end Sys2Proof.Machine
end

