-- ==== Sys2Proof/Machine/Lease.lean ====
section
/-! DEFINITION. The requests and events of the Lease Unit (spec/06_time_authority.md), and the
oscillator second, which the Lease Unit and the Port Controllers take. -/

namespace Sys2Proof.Machine

/-- ACQUIRE at the Lease Unit (R104). -/
def acquireAct (p : Port) (body : List Byte) (s : State) : State :=
  let s := s.settleSessionEnds p
  let d := (byteAt body 1).toNat
  if d = 0 then s.respond p (refusal .badValue)
  else match s.lease.holder with
    | none => ({ s with lease := { holder := some p, remaining := d } }).respond p (okBody [0x01])
    | some q =>
      if q = p then ({ s with lease := { holder := some p, remaining := d } }).respond p (okBody [0x02])
      else s.respond p (refusal .leaseHeld ++ [portByte q])

/-- ACQUIRE (R104). -/
def execAcquire (p : Port) (h : Header) (args : List Byte) (s : State)
    (phase : Phase := .whole) : Host.Outcome State Fault Refusal :=
  let body := 0x30 :: args
  .next (request phase p h body (body.length == 2) true (acquireAct p body) s)

/-- RENEW at the Lease Unit, past the gate (R105). -/
def renewAct (p : Port) (body : List Byte) (s : State) : State :=
  let d := (byteAt body 1).toNat
  if d = 0 then s.respond p (refusal .badValue)
  else ({ s with lease := { s.lease with remaining := d } }).respond p (okBody [])

/-- RENEW (R105). -/
def execRenew (p : Port) (h : Header) (args : List Byte) (s : State)
    (phase : Phase := .whole) : Host.Outcome State Fault Refusal :=
  let body := 0x31 :: args
  .next (request phase p h body (body.length == 2) true (leaseGate p (renewAct p body)) s)

/-- RELEASE (R106). -/
def execRelease (p : Port) (h : Header) (args : List Byte) (s : State)
    (phase : Phase := .whole) : Host.Outcome State Fault Refusal :=
  let body := 0x32 :: args
  .next (request phase p h body (body.length == 1) true
    (leaseGate p fun s => (s.endLease none).respond p (okBody [])) s)

/-- BREAK_LEASE at the Lease Unit (R108). -/
def breakLeaseAct (p : Port) (s : State) : State :=
  let s := s.settleSessionEnds p
  if p ≠ s.supervisor then s.respond p (refusal .denied)
  else match s.lease.holder with
    | none => s.respond p (refusal .badState)
    | some q => (s.endLease (some .broken)).respond p (okBody [portByte q])

/-- BREAK_LEASE (R108). -/
def execBreakLease (p : Port) (h : Header) (args : List Byte) (s : State)
    (phase : Phase := .whole) : Host.Outcome State Fault Refusal :=
  let body := 0x52 :: args
  .next (request phase p h body (body.length == 1) true (breakLeaseAct p) s)

/-- An oscillator second at the Lease Unit (R107). -/
def leaseSecond (s : State) : State :=
  if s.standby.running then
    match s.lease.holder with
    | none => s
    | some _ =>
      if s.lease.remaining = 0 then s.endLease (some .expired)
      else { s with lease := { s.lease with remaining := s.lease.remaining - 1 } }
  else s

/-- The mark of an oscillator second at the Lease Unit is taken (R4). -/
def takeLeaseSecondMark (s : State) : State :=
  let m := s.transit.marks
  { s with transit := { s.transit with marks := { m with leaseSeconds := m.leaseSeconds - 1 } } }

/-- OSCILLATOR_SECOND at the Lease Unit or at a Port Controller (R4, R107, R146). -/
def execOscillatorSecond (sink : SecondSink) (s : State) : Host.Outcome State Fault Refusal :=
  .next (match sink with
    | .lease => leaseSecond (takeLeaseSecondMark s)
    | .port p => portSecond p (takePortSecondMark p s))

/-- LEASE_EXPIRY: the oscillator second that finds the lease's remaining count at 0 (R107). -/
def execLeaseExpiry (s : State) : Host.Outcome State Fault Refusal :=
  .next (if s.lease.holder.isSome ∧ s.lease.remaining = 0 then leaseSecond (takeLeaseSecondMark s) else s)

/-- SESSION_END_CLAIM: the Lease Unit takes the oldest session-end claim of a port (R109). -/
def execSessionEndClaim (p : Port) (s : State) : Host.Outcome State Fault Refusal :=
  .next (if s.transit.sessionEnds.contains p then
      ({ s with transit := { s.transit with sessionEnds := s.transit.sessionEnds.erase p } }).takeSessionEnd p
    else s)

end Sys2Proof.Machine
end

