-- ==== Sys2Proof/Machine/Notice.lean ====
section
/-! DEFINITION. The Notice Unit and the delivery of notices (spec/05_notice_queues_and_delivery.md,
R168, R169). -/

namespace Sys2Proof.Machine

/-- The block whose notices stand upstream of a block's: the Timebase takes claims of the Lease Unit,
and the Schedule Table takes claims of the Timebase (R81). -/
def upstreamOf : NoticeSource → Option NoticeSource
  | .table => some .timebase
  | .timebase => some .lease
  | .lease => none

/-- The notice of a block that the Notice Unit may take next: the block's oldest, once the notices
of the block upstream that come before it have been taken (R81). -/
def State.noticeReady (s : State) (src : NoticeSource) : Option NoticeMsg :=
  match s.transit.notices.find? (·.src == src) with
  | none => none
  | some m =>
    if s.transit.notices.any fun x => decide (some x.src = upstreamOf src) && decide (x.stamp < m.after)
    then none else some m

/-- The ports a notice is addressed to as the Notice Unit takes it (R80). DEDUCED
(notes/assumptions/11.md). -/
def State.addressed (s : State) : Address → PortSet
  | .ports set => set
  | .openSessions => s.ports.map fun c => c.session.isOpen

/-- A notice placed in one port's queue, when the port is addressed (R81). -/
def placeFor (content : Content) (set : PortSet) (s : State) (p : Port) : State :=
  if set.get p then s.onQueue p fun q => q.placeNotice content else s

/-- NOTICE_TAKEN: the Notice Unit places a block's next notice in every queue it is addressed to (R81). -/
def execNoticeTaken (src : NoticeSource) (s : State) : Host.Outcome State Fault Refusal :=
  .next (match s.noticeReady src with
    | none => s
    | some m =>
      let s := { s with transit := { s.transit with notices := s.transit.notices.erase m } }
      Port.all.foldl (placeFor m.content (s.addressed m.address)) s)

/-! ### Acknowledgements -/

/-- The in-flight records left when the record of a sequence and every one ahead of it are retired;
`none` when no in-flight record carries the sequence (R89). -/
def retireThrough (seq : Fin 16) : List Sent → Option (List Sent)
  | [] => none
  | x :: rest => if x.seq = seq then some rest else retireThrough seq rest

/-- The ack timer after an ACK has retired records (R89). -/
def Delivery.acked (d : Delivery) (remain : Bool) : Delivery :=
  { d with retries := 0
           timer := if !remain then none else if d.state = .ready then some 0 else d.timer }

/-- An acknowledgement at a port's delivery (R89). -/
def takeAck (p : Port) (seq : Fin 16) (s : State) : State :=
  if (s.port p).session.isOpen then
    match retireThrough seq (s.queue p).inFlight with
    | none => s
    | some rest =>
      (s.onQueue p fun q => { q with inFlight := rest }).onPort p fun c =>
        { c with delivery := c.delivery.acked (!rest.isEmpty) }
  else s

/-- An accepted frame that is not a request: the receiver returns to HUNT and the keepalive count is
reloaded (R163). -/
def acceptOther (p : Port) (bytes : List Byte) (s : State) : State :=
  s.onPort p fun c =>
    let c := c.frameTaken bytes
    { c with session := c.session.reloaded }

/-- ACK (R89, R163). -/
def execAck (p : Port) (h : Header) (body : List Byte) (s : State) : Host.Outcome State Fault Refusal :=
  .next (if !s.listening p then s
    else if !bodyFits body then s.onPort p PortCtl.lengthError
    else takeAck p h.seq (acceptOther p (frameBytes .ack h body) s))

/-! ### Frame starts (R87, R88, R169) -/

/-- What the transmitter of a port would start now, in the order of R169. -/
inductive FrameChoice where
  | response (v : Service) (r : Response)
  | resend (x : Sent)
  | fresh (r : Record)
  deriving DecidableEq, Repr

/-- The choice of a frame start: the ready response, else the oldest marked record, else the oldest
unsent record while fewer are in flight than the window; nothing is offered but in READY (R87, R93,
R169). -/
def State.frameChoice (s : State) (p : Port) : Option FrameChoice :=
  let c := s.port p
  let q := s.queue p
  if c.tx != .free || !s.standby.running then none
  else match c.responseReady with
    | some (v, r) => some (.response v r)
    | none =>
      if c.delivery.state != .ready then none
      else match q.inFlight.find? (·.marked) with
        | some x => some (.resend x)
        | none =>
          match q.unsent with
          | r :: _ => if q.inFlight.length < c.session.window then some (.fresh r) else none
          | [] => none

/-- RDYn is sampled at a frame start, so not again while a frame is being sent (R168). -/
def State.sampleRdy (s : State) (p : Port) (rdy : Bool) : State :=
  if s.standby.running && (s.port p).tx == .free then s.onPort p fun c => { c with rdy } else s

/-- The oldest unsent record is sent (R87). -/
def sendFresh (p : Port) (r : Record) (s : State) : State :=
  let seq := (s.port p).delivery.nextSeq
  let first := (s.queue p).inFlight.isEmpty
  (s.onQueue p fun q => { q with inFlight := q.inFlight ++ [⟨r, seq, false⟩], unsent := q.unsent.drop 1 }).onPort p
    fun c => { c with
      delivery := { c.delivery with nextSeq := seq + 1, timer := if first then some 0 else c.delivery.timer }
      tx := .notice (noticeFrame r seq false) }

/-- NOTICE_FRAME_START (R87, R169). -/
def execNoticeFrameStart (p : Port) (rdy : Bool) (s : State) : Host.Outcome State Fault Refusal :=
  let s := s.sampleRdy p rdy
  .next (match rdy, s.frameChoice p with
    | true, some (.fresh r) => sendFresh p r s
    | _, _ => s)

/-- The first marked record of a list loses its mark (R91). -/
def unmarkFirst : List Sent → List Sent
  | [] => []
  | x :: rest => if x.marked then { x with marked := false } :: rest else x :: unmarkFirst rest

/-- The oldest marked record is re-sent with the retry flag (R88, R91). -/
def resendOldest (p : Port) (x : Sent) (s : State) : State :=
  (s.onQueue p fun q => { q with inFlight := unmarkFirst q.inFlight }).onPort p fun c =>
    { c with tx := .notice (noticeFrame x.record x.seq true) }

/-- RESEND_FRAME_START (R88, R169). -/
def execResendFrameStart (p : Port) (rdy : Bool) (s : State) : Host.Outcome State Fault Refusal :=
  let s := s.sampleRdy p rdy
  .next (match rdy, s.frameChoice p with
    | true, some (.resend x) => resendOldest p x s
    | _, _ => s)

/-- NOTICE_FRAME_END: the transmitter is free after the last character of a notice frame (R169). -/
def execNoticeFrameEnd (p : Port) (s : State) : Host.Outcome State Fault Refusal :=
  .next (match (s.port p).tx with
    | .notice _ => s.onPort p fun c => { c with tx := .free }
    | _ => s)

/-! ### The ack timer (R90, R91) -/

/-- A running ack timer advanced by one tick, up to the session's ack timeout (R90). -/
def PortCtl.ticked (c : PortCtl) : PortCtl :=
  { c with delivery := { c.delivery with
      timer := c.delivery.timer.map fun n => min (n + 1) c.session.ackTimeout } }

/-- TEN_MS_TICK: each running ack timer advances (R4, R90). -/
def execTenMsTick (s : State) : Host.Outcome State Fault Refusal :=
  let m := s.transit.marks
  let s := { s with transit := { s.transit with marks := { m with ticks := m.ticks - 1 } } }
  .next (if s.standby.running then { s with ports := s.ports.map PortCtl.ticked } else s)

/-- The ack timer of a port has expired: it has reached the session's ack timeout (R90). -/
def PortCtl.timerExpired (c : PortCtl) : Bool :=
  c.delivery.state == .ready && match c.delivery.timer with
    | some n => decide (c.session.ackTimeout ≤ n)
    | none => false

/-- ACK_TIMEOUT: a retransmission round begins, or the port stalls (R91, R93). -/
def execAckTimeout (p : Port) (s : State) : Host.Outcome State Fault Refusal :=
  let c := s.port p
  .next (if s.standby.running ∧ c.timerExpired = true then
      if c.delivery.retries < c.session.retryLimit then
        (s.onQueue p NoticeQueue.allMarked).onPort p fun c =>
          { c with delivery := { c.delivery with retries := c.delivery.retries + 1, timer := some 0 } }
      else
        (s.onQueue p NoticeQueue.unmarked).onPort p fun c =>
          { c with delivery := { c.delivery with state := .stalled, timer := none } }
    else s)

end Sys2Proof.Machine
end

