-- ==== Sys2Proof/Machine/Link.lean ====
section
/-! DEFINITION. The link level of a host port: refused and overrun requests, unused frames, receive
errors, the break, response frames and the receiver's header (spec/10_host_ports_and_framing.md). -/

namespace Sys2Proof.Machine

/-- UNKNOWN_REQUEST: a request with an undefined code or an empty body is refused UNKNOWN, whatever
the session (R165, R182). -/
def execUnknownRequest (p : Port) (h : Header) (body : List Byte) (s : State) : Host.Outcome State Fault Refusal :=
  .next (if codeUndefined body then
      serve p h body true false (fun s => s.respond p (refusal .unknown)) s
    else s)

/-- OVERRUN: an accepted request arriving while another is in service is discarded (R164). -/
def execOverrun (p : Port) (h : Header) (body : List Byte) (s : State) : Host.Outcome State Fault Refusal :=
  .next (if (s.port p).service.isSome then serve p h body true false id s else s)

/-- The class of an unused frame (R163). -/
def unusedFrameClass : UnusedClass → FrameClass
  | .response => .response
  | .notice => .notice

/-- UNUSED_FRAME: an accepted RESPONSE or NOTICE frame only reloads the keepalive count (R163). -/
def execUnusedFrame (p : Port) (cls : UnusedClass) (h : Header) (body : List Byte) (s : State) :
    Host.Outcome State Fault Refusal :=
  .next (if !s.listening p then s
    else if !bodyFits body then s.onPort p PortCtl.lengthError
    else acceptOther p (frameBytes (unusedFrameClass cls) h body) s)

/-- What a receiver's step does to its port: the next receiver state and any error recorded (R161). -/
def PortCtl.received (c : PortCtl) (x : RxStep) : PortCtl :=
  { c with rx := x.rx, lastError := x.error.getD c.lastError }

/-- RECEIVE_ERROR: characters on RXn, one of which fails a check (R158, R159). Characters that
complete a frame belong to the frame's own command, and leave the state as it is here. -/
def execReceiveError (p : Port) (chars : List RxChar) (s : State) : Host.Outcome State Fault Refusal :=
  let x := takeChars (s.port p).rx chars
  .next (if s.listening p ∧ x.accepted = false then s.onPort p fun c => c.received x else s)

/-- FRAME_HEADER: a character with mark bit 1 and a good stop bit (R158, R159). -/
def execFrameHeader (p : Port) (data : Byte) (s : State) : Host.Outcome State Fault Refusal :=
  .next (if s.listening p then
      s.onPort p fun c => c.received (takeChar c.rx ⟨data, true, true⟩)
    else s)

/-- GAP: the interval between two characters of a frame runs out (R160). -/
def execGap (p : Port) (s : State) : Host.Outcome State Fault Refusal :=
  .next (if s.listening p then
      match (s.port p).rx with
      | .hunt => s
      | .inFrame _ => s.onPort p fun c => { c with rx := .hunt, lastError := .gap }
    else s)

/-- BREAK: the break's first 11 bit times are taken as a character, and then the break itself (R162). -/
def execBreak (p : Port) (s : State) : Host.Outcome State Fault Refusal :=
  .next (if s.listening p then
      let s := s.onPort p fun c => { c.received (takeChar c.rx breakChar) with awaitMark := true }
      if (s.port p).session.isOpen then s.teardown p .lineBreak else s
    else s)

/-- RETURN_TO_MARKING: the receiver takes start bits and detects breaks again (R162). -/
def execReturnToMarking (p : Port) (s : State) : Host.Outcome State Fault Refusal :=
  .next (if s.standby.running then s.onPort p fun c => { c with awaitMark := false } else s)

/-- The response cache after the start of a response frame (R166). -/
def cacheAfter (old : Option Cached) (v : Service) (r : Response) : Option Cached :=
  if r.replay ∨ r.body.head? = some Status.busy.code then old else some ⟨v.header.seq, r.body⟩

/-- RESPONSE_FRAME_START (R166, R168, R169). -/
def execResponseFrameStart (p : Port) (rdy : Bool) (s : State) : Host.Outcome State Fault Refusal :=
  let s := s.sampleRdy p rdy
  .next (match rdy, s.frameChoice p with
    | true, some (.response v r) =>
      s.onPort p fun c => { c with
        cache := cacheAfter c.cache v r, tx := .response (responseFrame v.header.seq r) true }
    | _, _ => s)

/-- END_OF_SERVICE: the last character of a response has been sent (R164, R169). -/
def execEndOfService (p : Port) (s : State) : Host.Outcome State Fault Refusal :=
  .next (match (s.port p).tx with
    | .response _ inService =>
      s.onPort p fun c => { c with tx := .free, service := if inService then none else c.service }
    | _ => s)

end Sys2Proof.Machine
end

