-- ==== Sys2Proof/Machine/Power.lean ====
section
/-! DEFINITION. The events of the Standby Controller (spec/11_standby_and_retained_operation.md). -/

namespace Sys2Proof.Machine

/-- PF: filtered PF takes a level, which is an event of the Standby Controller, or the pin does, which
the filter then samples (R172). -/
def execPf (asserted : Bool) (straps : Straps) (s : State) (point : PinPoint := .filtered) :
    Host.Outcome State Fault Refusal :=
  let b := s.standby
  .next (match point with
    | .pin => s.atPins straps { b with pfPin := { b.pfPin with level := asserted } }
    | .filtered =>
      (s.atPins s.pins { b with pfPin := b.pfPin.taken asserted }).inputs asserted b.rst b.vddGood straps)

/-- RST: filtered RST takes a level, or the pin does (R172, R176). -/
def execRst (asserted : Bool) (straps : Straps) (s : State) (point : PinPoint := .filtered) :
    Host.Outcome State Fault Refusal :=
  let b := s.standby
  .next (match point with
    | .pin => s.atPins straps { b with rstPin := { b.rstPin with level := asserted } }
    | .filtered =>
      (s.atPins s.pins { b with rstPin := b.rstPin.taken asserted }).inputs b.pf asserted b.vddGood straps)

/-- The levels handed to a change that cannot start the port domain. -/
def noStraps : Straps := Straps.atReset

/-- VDD_LOSS: VDD stops being good (R177). -/
def execVddLoss (s : State) : Host.Outcome State Fault Refusal :=
  .next (s.inputs s.standby.pf s.standby.rst false noStraps)

/-- VDD_GOOD: VDD is good again after the settle time (R177). -/
def execVddGood (straps : Straps) (s : State) : Host.Outcome State Fault Refusal :=
  .next (s.inputs s.standby.pf s.standby.rst true straps)

/-- COLD_START: every retained block begins in its cold-start state and the port domain is HELD (R178).
With VDD good and both inputs deasserted it starts at once (R175, R178). The commands waiting, and the
model's own counter of free values, stay. -/
def execColdStart (pf rst : Bool) (s : State) (good : Option Straps := none) :
    Host.Outcome State Fault Refusal :=
  let cold := State.cold s.pending s.freeIndex pf rst good.isSome (good.getD s.pins)
  .next (match good with
    | some straps => if pf || rst then cold else cold.startDomain straps
    | none => cold)

end Sys2Proof.Machine
end

