-- ==== Sys2Proof/Machine/Rescan.lean ====
section
/-! DEFINITION. The step claim, the rescan and the epoch-end claim (spec/08_step_processing.md, R43). -/

namespace Sys2Proof.Machine

/-- The Timebase claim the Schedule Table may take next. A claim that an advance gave rise to waits
until the looks presented and the firing claims made before it have been taken (R52). -/
def State.timeClaimReady (s : State) : Option TimeMsg :=
  match s.transit.timeClaims with
  | [] => none
  | m :: _ =>
    let looksTaken := s.transit.looks.all fun x => match x with
      | .presented stamp _ _ => decide (m.stamp ≤ stamp)
      | .tableEvent => true
    let firingsTaken := s.transit.firings.all fun x => decide (m.stamp ≤ x.stamp)
    if !m.fromAdvance || (looksTaken && firingsTaken) then some m else none

/-- The Schedule Table takes the oldest Timebase claim (R81). -/
def State.timeClaimTaken (s : State) (m : TimeMsg) : State :=
  { s with transit := { s.transit with
      timeClaims := s.transit.timeClaims.drop 1, tableAfter := m.stamp } }

/-- STEP_CLAIM: the Schedule Table enters RESCAN (R127). -/
def execStepClaim (s : State) : Host.Outcome State Fault Refusal :=
  .next (match s.timeClaimReady with
    | none => s
    | some m =>
      match m.claim with
      | .epochEnd => s
      | .step delta instant =>
        if s.tableNormal then
          let s := s.timeClaimTaken m
          { s with table := { s.table with
              mode := .rescan { delta, instant, position := 0 }, heldReleases := [] } }
        else s)

/-- A RELATIVE due shifted by the step amount and clamped to the epoch (R130). -/
def shiftDue (due : Nat) (delta : Int) : Nat :=
  let sum := (due : Int) + delta
  if sum < 0 then 0 else min sum.toNat Config.lastInstant

/-- A due treated by a step policy (R129, R131). -/
def StepPolicy.due (pol : StepPolicy) (due : Nat) (delta : Int) : Nat :=
  match pol with
  | .absolute => due
  | .relative => shiftDue due delta

/-- The step policy of an entry, which a MATCH entry does not have (R21). -/
def Plan.policy : Plan → Option StepPolicy
  | .once _ pol | .periodic _ _ pol => some pol
  | .calendar _ => none

/-- The treatment of one entry at its visit (R129 to R132). -/
def visitEntry (r : Rescan) (i : SlotNo) (e : Entry) (s : State) : State :=
  match e.plan.policy, e.state with
  | some pol, .armed due => s.place i { e with state := .armed (pol.due due r.delta) } .pastEpoch
  | some pol, .suspended (some due) =>
    s.place i { e with state := .suspended (some (pol.due due r.delta)) } .pastEpoch
  | none, .armed _ => s.place i { e with state := .searching } (referenceAfter r.instant)
  | none, .searching => { s with search := s.search.resetRef i (referenceAfter r.instant) }
  | _, _ => s

/-- RESCAN_VISIT: the rescan treats the slot at the visit position and moves on (R128). -/
def execRescanVisit (s : State) : Host.Outcome State Fault Refusal :=
  .next (match s.table.mode with
    | .normal => s
    | .rescan r =>
      if h : r.position < 64 then
        let i : SlotNo := ⟨r.position, h⟩
        let s := match s.entry i with
          | some e => visitEntry r i e s
          | none => s
        { s with table := { s.table with mode := .rescan { r with position := r.position + 1 } } }
      else s)

/-- The looks of the presentations on their way are taken: they find the mode RESCAN and hand nothing
on, and their passed-over counts are lost (R49, R128). -/
def State.looksLost (s : State) : State :=
  { s with transit := { s.transit with looks := s.transit.looks.filter (·.isFrom .table) } }

/-- RESCAN_END: the presentations still on their way find the rescan, held release claims are applied,
the mode returns to NORMAL, and the Due Monitor looks at the Due List (R128, R135). -/
def execRescanEnd (s : State) : Host.Outcome State Fault Refusal :=
  .next (match s.table.mode with
    | .normal => s
    | .rescan r =>
      if 64 ≤ r.position then
        let s := s.table.heldReleases.foldl State.releaseEntries s.looksLost
        let s := { s with table := { s.table with mode := .normal, heldReleases := [] } }
        s.handLook .tableEvent
      else s)

/-- An entry the epoch end ends: ARMED, SEARCHING or SUSPENDED (R43). -/
def EntryState.live : EntryState → Bool
  | .armed _ | .searching | .suspended _ => true
  | _ => false

/-- The epoch-end claim applied to one slot (R43). -/
def epochEndSlot (s : State) (i : SlotNo) : State :=
  match s.entry i with
  | none => s
  | some e =>
    if e.state.live then
      (s.place i { e with state := .spent .epoch } .pastEpoch).handEnded ⟨i, (s.slot i).gen⟩ e .epoch
    else s

/-- EPOCH_END_CLAIM: the Schedule Table ends every live entry, in ascending slot order (R43). -/
def execEpochEndClaim (s : State) : Host.Outcome State Fault Refusal :=
  .next (match s.timeClaimReady with
    | none => s
    | some m =>
      match m.claim with
      | .step .. => s
      | .epochEnd => (List.finRange 64).foldl epochEndSlot (s.timeClaimTaken m))

end Sys2Proof.Machine
end

