-- ==== Sys2Proof/Machine/Schedule.lean ====
section
/-! DEFINITION. The entry requests of the Schedule Table, the supervisor's among them
(spec/02_schedule_entries.md, R152, R153). -/

namespace Sys2Proof.Machine

/-- Check 1 of R25: an entry request in RESCAN mode is refused BUSY. -/
def whenNormal (p : Port) (act : State → State) (s : State) : State :=
  if s.tableNormal then act s else s.respond p (refusal .busy)

/-- Check 2 of R25: the handle of a request is current, or the request is refused BAD_HANDLE. -/
def withCurrent (p : Port) (body : List Byte) (act : Handle → Entry → State → State) (s : State) : State :=
  match handleAt body 1 with
  | none => s.respond p (refusal .badHandle)
  | some h =>
    match s.current h with
    | none => s.respond p (refusal .badHandle)
    | some e => act h e s

/-- Checks 1 to 3 of R25 for a request of an entry's owner (R26). -/
def asOwner (p : Port) (body : List Byte) (act : Handle → Entry → State → State) (s : State) : State :=
  whenNormal p (withCurrent p body fun h e s =>
    if e.owner = p then act h e s else s.respond p (refusal .denied)) s

/-- The lowest-numbered FREE slot (R28). -/
def State.freeSlot? (s : State) : Option SlotNo :=
  (List.finRange 64).find? fun i => (s.entry i).isNone

/-- CREATE at the Schedule Table (R27, R28). DESIGN CHOICE: a request of the port's next session, this one
as any other, may be taken ahead of a release claim of its last one (notes/assumptions/23.md). -/
def createAct (p : Port) (body : List Byte) (s : State) : State :=
  whenNormal p (fun s =>
    match entryOf p body with
    | none => s.respond p (refusal .badValue)
    | some e =>
      if s.table.quota.get p ≤ s.ownedCount p then s.respond p (refusal .noRoom)
      else match s.freeSlot? with
        | none => s.respond p (refusal .noRoom)
        | some i => (s.place i e .pastEpoch).respond p (okBody (handleBytes ⟨i, (s.slot i).gen⟩))) s

/-- CREATE (R28). -/
def execCreate (p : Port) (h : Header) (args : List Byte) (s : State)
    (phase : Phase := .whole) : Host.Outcome State Fault Refusal :=
  let body := 0x40 :: args
  .next (request phase p h body (createLengthOk body) true (createAct p body) s)

/-- The start override of an ARM, which its length alone decides (R182): `none` for a value out of
range, `some none` for no override. -/
def overrideOf (body : List Byte) : Option (Option Start) :=
  if body.length = 3 then some none
  else (startAt body 3 (body.length == 7)).map some

/-- The plan of an entry with its start replaced by an override; `none` for an override of a MATCH
entry (R29, R30). -/
def Plan.override (plan : Plan) (o : Option Start) : Option Plan :=
  match o, plan with
  | none, _ => some plan
  | some s, .once _ pol => some (.once s pol)
  | some s, .periodic _ p pol => some (.periodic s p pol)
  | some _, .calendar _ => none

/-- The due a start resolves to at an instant (R30). -/
def Start.resolve (start : Start) (instant : Nat) : Nat :=
  match start with
  | .absolute c => c
  | .relative o => instant + o

/-- The state an ARM gives an entry of a plan, at an instant (R30, R31). -/
def Plan.armed (plan : Plan) (instant : Nat) : EntryState :=
  match plan with
  | .once start _ | .periodic start _ _ => .armed (start.resolve instant)
  | .calendar _ => .searching

/-- The due of an entry state lies within the epoch (R29). -/
def EntryState.dueFits : EntryState → Bool
  | .armed due => due ≤ Config.lastInstant
  | _ => true

/-- An entry may be armed: it is HELD or SPENT (R29). -/
def EntryState.armable : EntryState → Bool
  | .held | .spent _ => true
  | _ => false

/-- ARM of an entry whose owner sends it (R29, R30, R31). -/
def armEntry (p : Port) (body : List Byte) (h : Handle) (e : Entry) (s : State) : State :=
  if !e.state.armable then s.respond p (refusal .badState)
  else if !s.time.valid then s.respond p (refusal .notValid)
  else match (overrideOf body).bind e.plan.override with
    | none => s.respond p (refusal .badValue)
    | some plan =>
      let st := plan.armed s.time.instant
      if st.dueFits then
        let e' := { e with state := st, plan, remaining := remainingOf e.repeatLimit }
        (s.place h.slot e' (referenceAfter s.time.instant)).respond p (okBody [st.code])
      else s.respond p (refusal .badValue)

/-- ARM (R29). -/
def execArm (p : Port) (h : Header) (args : List Byte) (s : State)
    (phase : Phase := .whole) : Host.Outcome State Fault Refusal :=
  let body := 0x41 :: args
  .next (request phase p h body (body.length == 3 || body.length == 7 || body.length == 10) true
    (asOwner p body (armEntry p body)) s)

/-- The state SUSPEND gives an entry: a ONCE or PERIODIC entry keeps its due, a MATCH entry drops
it; `none` where SUSPEND is refused BAD_STATE (R32, R33). -/
def Entry.suspended (e : Entry) : Option EntryState :=
  match e.state, e.plan with
  | .armed _, .calendar _ => some (.suspended none)
  | .armed due, _ => some (.suspended (some due))
  | .searching, _ => some (.suspended none)
  | _, _ => none

/-- SUSPEND of an entry whose owner sends it (R32, R33). -/
def suspendEntry (p : Port) (h : Handle) (e : Entry) (s : State) : State :=
  match e.suspended with
  | none => s.respond p (refusal .badState)
  | some st => (s.place h.slot { e with state := st } .pastEpoch).respond p (okBody [])

/-- SUSPEND (R32). -/
def execSuspend (p : Port) (h : Header) (args : List Byte) (s : State)
    (phase : Phase := .whole) : Host.Outcome State Fault Refusal :=
  let body := 0x42 :: args
  .next (request phase p h body (body.length == 3) true (asOwner p body (suspendEntry p)) s)

/-- The state RESUME gives a SUSPENDED entry: ARMED with its stored due, or SEARCHING for MATCH;
`none` where RESUME is refused BAD_STATE (R34, R35). -/
def EntryState.resumed : EntryState → Option EntryState
  | .suspended (some due) => some (.armed due)
  | .suspended none => some .searching
  | _ => none

/-- RESUME of an entry whose owner sends it (R34, R35). -/
def resumeEntry (p : Port) (h : Handle) (e : Entry) (s : State) : State :=
  match e.state.resumed with
  | none => s.respond p (refusal .badState)
  | some st =>
    if !s.time.valid then s.respond p (refusal .notValid)
    else (s.place h.slot { e with state := st } (referenceAfter s.time.instant)).respond p (okBody [])

/-- RESUME (R34). -/
def execResume (p : Port) (h : Header) (args : List Byte) (s : State)
    (phase : Phase := .whole) : Host.Outcome State Fault Refusal :=
  let body := 0x43 :: args
  .next (request phase p h body (body.length == 3) true (asOwner p body (resumeEntry p)) s)

/-- DELETE (R37). -/
def execDelete (p : Port) (h : Header) (args : List Byte) (s : State)
    (phase : Phase := .whole) : Host.Outcome State Fault Refusal :=
  let body := 0x44 :: args
  .next (request phase p h body (body.length == 3) true
    (asOwner p body fun h _ s => (s.freeSlot h.slot).respond p (okBody [])) s)

/-- QUERY of a current entry: the STATE part, the PARAMETERS part, or BAD_VALUE (R40, R41). The
PARAMETERS part draws a free value (notes/assumptions/1.md). -/
def queryEntry (p : Port) (body : List Byte) (h : Handle) (e : Entry) (s : State) : State :=
  match (byteAt body 3).toNat with
  | 0 => s.respond p (okBody (stateBytes h e (s.reference h.slot)))
  | 1 =>
    ({ s with freeIndex := s.freeIndex + 1 }).respond p
      (okBody (parameterBytes e (Config.freeOptionBits s.freeIndex)))
  | _ => s.respond p (refusal .badValue)

/-- QUERY (R40). -/
def execQuery (p : Port) (h : Header) (args : List Byte) (s : State)
    (phase : Phase := .whole) : Host.Outcome State Fault Refusal :=
  let body := 0x45 :: args
  .next (request phase p h body (body.length == 4) true
    (whenNormal p (withCurrent p body (queryEntry p body))) s)

/-- One character of LIST's ownership map: slots 8i to 8i + 7 (R183). -/
def ownershipByte (s : State) (q : Port) (i : Nat) : Byte :=
  byteOf ((List.range 8).map fun k =>
    if ((s.table.slots.toList[8 * i + k]?).map (·.ownedBy q)).getD false then 2 ^ k else 0).sum

/-- One character of LIST's generations: two slots, the lower-numbered in bits 7 to 4 (R183). -/
def generationsByte (s : State) (first : Nat) : Byte :=
  let g (k : Nat) : Nat := ((s.table.slots.toList[k]?).map (·.gen.val)).getD 0
  byteOf (16 * g first + g (first + 1))

/-- The fields of a LIST response (R42, R183). -/
def listFields (s : State) (q : Port) (group : Nat) : List Byte :=
  (List.range 8).map (ownershipByte s q) ++ (List.range 8).map (fun k => generationsByte s (16 * group + 2 * k))
    ++ [byteOf (s.table.quota.get q), byteOf (s.ownedCount q)]

/-- LIST at the Schedule Table (R42). -/
def listAct (p : Port) (body : List Byte) (s : State) : State :=
  whenNormal p (fun s =>
    let group := (byteAt body 2).toNat
    match portOf (byteAt body 1) with
    | none => s.respond p (refusal .badValue)
    | some q =>
      if group ≤ 3 then s.respond p (okBody (listFields s q group)) else s.respond p (refusal .badValue)) s

/-- LIST (R42). -/
def execList (p : Port) (h : Header) (args : List Byte) (s : State)
    (phase : Phase := .whole) : Host.Outcome State Fault Refusal :=
  let body := 0x46 :: args
  .next (request phase p h body (body.length == 3) true (listAct p body) s)

/-- SET_QUOTA at the Schedule Table, in the order of R152. -/
def setQuotaAct (p : Port) (body : List Byte) (s : State) : State :=
  whenNormal p (fun s =>
    if p ≠ s.supervisor then s.respond p (refusal .denied)
    else
      let n := (byteAt body 2).toNat
      match portOf (byteAt body 1) with
      | none => s.respond p (refusal .badValue)
      | some q =>
        let quota := s.table.quota.set q n
        if 64 < n then s.respond p (refusal .badValue)
        else if 64 < quotaSum quota then s.respond p (refusal .noRoom)
        else if n < s.ownedCount q then s.respond p (refusal .badState)
        else ({ s with table := { s.table with quota } }).respond p
          (okBody [byteOf n, byteOf (s.ownedCount q), byteOf (quotaSum quota)])) s

/-- SET_QUOTA (R152). -/
def execSetQuota (p : Port) (h : Header) (args : List Byte) (s : State)
    (phase : Phase := .whole) : Host.Outcome State Fault Refusal :=
  let body := 0x51 :: args
  .next (request phase p h body (body.length == 3) true (setQuotaAct p body) s)

/-- PURGE of a current entry (R39, R153). -/
def purgeEntry (p : Port) (h : Handle) (e : Entry) (s : State) : State :=
  if p ≠ s.supervisor then s.respond p (refusal .denied)
  else ((s.handEnded h e .purged).freeSlot h.slot).respond p (okBody [portByte e.owner, e.state.code])

/-- PURGE (R153). -/
def execPurge (p : Port) (h : Header) (args : List Byte) (s : State)
    (phase : Phase := .whole) : Host.Outcome State Fault Refusal :=
  let body := 0x53 :: args
  .next (request phase p h body (body.length == 3) true (whenNormal p (withCurrent p body (purgeEntry p))) s)

/-- RELEASE_CLAIM: the Schedule Table takes the oldest release claim of a port, and applies it or
holds it until the rescan ends (R38, R134). DESIGN CHOICE: entry requests that the port has sent since
may be taken ahead of it, and it frees what they left with policy RELEASE (notes/assumptions/23.md). -/
def execReleaseClaim (p : Port) (s : State) : Host.Outcome State Fault Refusal :=
  .next (if s.transit.releases.contains p then
      let s := { s with transit := { s.transit with releases := s.transit.releases.erase p } }
      if s.tableNormal then s.releaseEntries p
      else { s with table := { s.table with heldReleases := s.table.heldReleases ++ [p] } }
    else s)

end Sys2Proof.Machine
end

