-- ==== Sys2Proof/Machine/SearchEngine.lean ====
section
/-! DEFINITION. The Match Search Engine and its result claims (spec/04_the_match_search.md). -/

namespace Sys2Proof.Machine

/-- The result of a job: the search of its entry's pattern from its reference (R67, R71). -/
def jobResult (s : State) (j : Job) : ResultClaim :=
  let found := match s.entry j.slot with
    | some e => match e.plan with
      | .calendar p => searchResult p j.ref
      | _ => none
    | none => none
  { slot := j.slot, gen := j.gen, ref := j.ref, found }

/-- SEARCH_RUN_COMPLETE: the run in hand completes and its result claim is handed on (R70, R71). -/
def execSearchRunComplete (s : State) : Host.Outcome State Fault Refusal :=
  .next (match s.search.engine with
    | .running i .searching =>
      match s.search.jobs.find? (·.slot == i) with
      | none => s
      | some j =>
        { s with search := { s.search with engine := .running i .delivered }
                 transit := { s.transit with results := s.transit.results ++ [jobResult s j] } }
    | _ => s)

/-- A result claim applied: ARMED with the found second, or SPENT with NO_MATCH (R71, R73). -/
def applyResult (c : ResultClaim) (e : Entry) (s : State) : State :=
  match c.found with
  | some second => s.place c.slot { e with state := .armed second } .pastEpoch
  | none =>
    (s.place c.slot { e with state := .spent .noMatch } .pastEpoch).handEnded ⟨c.slot, c.gen⟩ e .noMatch

/-- RESULT_CLAIM: the Schedule Table takes the oldest result claim, and applies or discards it (R71). -/
def execResultClaim (s : State) : Host.Outcome State Fault Refusal :=
  .next (match s.transit.results with
    | [] => s
    | c :: rest =>
      let s := { s with transit := { s.transit with results := rest } }
      match s.current ⟨c.slot, c.gen⟩ with
      | none => s
      | some e =>
        if e.state = .searching ∧ s.reference c.slot = some c.ref then applyResult c e s else s)

end Sys2Proof.Machine
end

