-- ==== Sys2Proof/Machine/Time.lean ====
section
/-! DEFINITION. The requests and events of the Timebase and the prescaler (spec/01_the_timebase.md,
spec/07_setting_the_time.md). -/

namespace Sys2Proof.Machine

/-- The slew remaining as READ_TIME reports it: 0 when IDLE (R16). -/
def Slew.remaining : Slew → Int
  | .idle => 0
  | .active r _ => r

/-- The fields of a READ_TIME response (R16, R183). -/
def readTimeFields (t : Timebase) : List Byte :=
  let c := calendarView t.instant
  let active := t.slew != .idle
  let port := match t.slot with
    | .empty => none
    | .pending _ p => some p
  instantBytes t.instant ++ [byteOf c.weekday, byteOf c.weekNumber,
      byteOf (t.valid.toNat + 2 * active.toNat + 4 * port.isSome.toNat)]
    ++ intBytes 2 t.slew.remaining ++ [portOrNone port]

/-- READ_TIME (R16). -/
def execReadTime (p : Port) (h : Header) (args : List Byte) (s : State)
    (phase : Phase := .whole) : Host.Outcome State Fault Refusal :=
  let body := 0x20 :: args
  .next (request phase p h body (body.length == 1) false
    (fun s => s.respond p (okBody (readTimeFields s.time))) s)

/-- One staging field after STAGE_TIME: the value named in the mask, or else the current one loaded,
or else what it was (R112). -/
def stageField (body : List Byte) (i : Nat) (current : Nat) (old : Option Byte) : Option Byte :=
  let mask := byteAt body 1
  if mask.getLsbD i then some (byteAt body (2 + i))
  else if mask.getLsbD 7 then some (byteOf current) else old

/-- The staging record after STAGE_TIME (R112). -/
def Staging.staged (r : Staging) (body : List Byte) (now : Calendar) : Staging :=
  { year := stageField body 0 now.year r.year, month := stageField body 1 now.month r.month
    day := stageField body 2 now.day r.day, hour := stageField body 3 now.hour r.hour
    minute := stageField body 4 now.minute r.minute, second := stageField body 5 now.second r.second
    fraction := stageField body 6 now.fraction r.fraction }

/-- STAGE_TIME at the Timebase (R112). -/
def stageAct (p : Port) (body : List Byte) (s : State) : State :=
  let r := (s.port p).staging.staged body (calendarView s.time.instant)
  (s.onPort p fun c => { c with staging := r }).respond p (okBody r.bytes)

/-- STAGE_TIME (R112). -/
def execStageTime (p : Port) (h : Header) (args : List Byte) (s : State)
    (phase : Phase := .whole) : Host.Outcome State Fault Refusal :=
  let body := 0x21 :: args
  .next (request phase p h body (body.length == 9) true (stageAct p body) s)

/-- The staged calendar, when all seven fields are present (R113). -/
def Staging.calendar (r : Staging) : Option Calendar := do
  let year ← r.year
  let month ← r.month
  let day ← r.day
  let hour ← r.hour
  let minute ← r.minute
  let second ← r.second
  let fraction ← r.fraction
  return { year := year.toNat, month := month.toNat, day := day.toNat, hour := hour.toNat
           minute := minute.toNat, second := second.toNat, fraction := fraction.toNat }

/-- The three commit modes (R113, R181). -/
inductive CommitMode where
  | step
  | onSecond
  | slew
  deriving DecidableEq, Repr

def CommitMode.ofByte (b : Byte) : Option CommitMode :=
  match b.toNat with
  | 0 => some .step
  | 1 => some .onSecond
  | 2 => some .slew
  | _ => none

def CommitMode.code : CommitMode → Byte
  | .step => 0x00
  | .onSecond => 0x01
  | .slew => 0x02

/-- A STEP commit's step amount (R115). -/
def stepAmount (t : Timebase) (staged : Nat) : Int := if t.valid then (staged : Int) - t.instant else 0

/-- What a commit that has passed every check does to the Timebase, with its response fields (R114,
R116, R119). -/
def commitEffect (p : Port) (mode : CommitMode) (staged : Nat) (s : State) : State × List Byte :=
  match mode with
  | .step =>
    let delta := stepAmount s.time staged
    (s.stepTime false staged delta, mode.code :: intBytes 6 delta)
  | .onSecond =>
    ({ s with time := { s.time with slot := .pending (staged / 256 * 256) p } }, [mode.code])
  | .slew =>
    let offset : Int := (staged : Int) - s.time.instant
    if offset = 0 then
      (({ s with time := { s.time with slot := .empty, slew := .idle } }).handSlewDone, [mode.code])
    else ({ s with time := { s.time with slot := .empty, slew := .active offset 0 } }, [mode.code])

/-- The checks of R113, in order: the mode and the staged instant to commit, or the status of the
first check that fails. -/
def commitCheck (p : Port) (body : List Byte) (s : State) : Except Status (CommitMode × Nat) :=
  match CommitMode.ofByte (byteAt body 1) with
  | none => .error .badValue
  | some mode =>
    if !s.tableNormal || s.stepOnWay then .error .busy
    else match (s.port p).staging.calendar with
      | none => .error .incomplete
      | some c =>
        if !c.isReal then .error .badValue
        else if mode = .slew ∧ !s.time.valid then .error .notValid
        else if mode = .slew ∧ Config.slewLimit < ((c.toCount : Int) - s.time.instant).natAbs then
          .error .badValue
        else .ok (mode, c.toCount)

/-- COMMIT_TIME at the Timebase, past the gate (R113). -/
def commitAct (p : Port) (body : List Byte) (s : State) : State :=
  match commitCheck p body s with
  | .error st => s.respond p (refusal st)
  | .ok (mode, staged) =>
    let r := commitEffect p mode staged s
    (r.1.onPort p fun c => { c with staging := Staging.absent }).respond p (okBody r.2)

/-- COMMIT_TIME (R113). -/
def execCommitTime (p : Port) (h : Header) (args : List Byte) (s : State)
    (phase : Phase := .whole) : Host.Outcome State Fault Refusal :=
  let body := 0x22 :: args
  .next (request phase p h body (body.length == 2) true (throughGate p (commitAct p body)) s)

/-- The outcome CANCEL_COMMIT reports (R122). -/
def cancelOutcome (t : Timebase) : Byte :=
  byteOf ((t.slot != .empty).toNat + 2 * (t.slew != .idle).toNat)

/-- CANCEL_COMMIT at the Timebase, past the gate (R122). -/
def cancelAct (p : Port) (s : State) : State :=
  ({ s with time := { s.time with slot := .empty, slew := .idle } }).respond p
    (okBody [cancelOutcome s.time])

/-- CANCEL_COMMIT (R122). -/
def execCancelCommit (p : Port) (h : Header) (args : List Byte) (s : State)
    (phase : Phase := .whole) : Host.Outcome State Fault Refusal :=
  let body := 0x23 :: args
  .next (request phase p h body (body.length == 1) true (throughGate p (cancelAct p)) s)

/-- The window position READ_TRIM reports (R17): whole seconds of crystal time elapsed in the window in
progress, which is still the old one, at its 31, while a window start is due and not taken. -/
def windowSeconds (s : State) : Nat :=
  if 0 < s.transit.marks.windowStarts then 31 else s.osc.windowPos / 32768

/-- The fields of a READ_TRIM response (R17, R183). -/
def readTrimFields (s : State) : List Byte :=
  intBytes 1 s.osc.trim ++ intBytes 1 s.osc.pendingTrim ++ [byteOf (windowSeconds s)]

/-- READ_TRIM (R17). -/
def execReadTrim (p : Port) (h : Header) (args : List Byte) (s : State)
    (phase : Phase := .whole) : Host.Outcome State Fault Refusal :=
  let body := 0x24 :: args
  .next (request phase p h body (body.length == 1) true
    (fun s => s.respond p (okBody (readTrimFields s))) s)

/-- SET_TRIM at the Timebase, past the gate (R123). -/
def setTrimAct (p : Port) (body : List Byte) (s : State) : State :=
  let t := signedAt body 1
  if -128 ≤ t ∧ t ≤ 127 then
    ({ s with osc := { s.osc with pendingTrim := t } }).respond p (okBody [])
  else s.respond p (refusal .badValue)

/-- SET_TRIM (R123). -/
def execSetTrim (p : Port) (h : Header) (args : List Byte) (s : State)
    (phase : Phase := .whole) : Host.Outcome State Fault Refusal :=
  let body := 0x25 :: args
  .next (request phase p h body (body.length == 3) true (throughGate p (setTrimAct p body)) s)

/-! ### The advance -/

/-- How far an advance moves the instant, the slew after it, and whether the correction it makes
brings R to 0 (R7, R120). -/
structure Advance where
  amount : Nat
  slew : Slew
  done : Bool
  deriving DecidableEq, Repr

/-- The advance that the slew state makes of a TU advance (R7, R120). -/
def Slew.advance : Slew → Advance
  | .idle => ⟨1, .idle, false⟩
  | .active r phase =>
    if phase + 1 < 64 then ⟨1, .active r (phase + 1), false⟩
    else
      let r' := if 0 < r then r - 1 else r + 1
      ⟨if 0 < r then 2 else 0, if r' = 0 then .idle else .active r' 0, r' == 0⟩

/-- An advance that moves the instant, or holds it, with what it hands on (R7, R14, R120). -/
def moveInstant (a : Advance) (s : State) : State :=
  let instant := s.time.instant + a.amount
  let s := { s with time := { s.time with instant, slew := a.slew } }
  let s := if a.done then s.handSlewDone else s
  match a.amount with
  | 0 => s
  | 1 => s.present instant none
  | _ => s.present instant (some (instant - 1))

/-- The epoch end at the Timebase (R13). DESIGN CHOICE (notes/assumptions/20.md): out of count
807,874,559,998, by a gained advance, it presents no count, so an entry due at 807,874,559,999 has not
fired and the epoch-end claim makes it SPENT with EPOCH. -/
def epochEnd (s : State) : State :=
  let s := { s with time := { s.time with instant := 0, valid := false, slew := .idle } }
  (s.handNotice .timebase .epoch .openSessions).handTimeClaim true .epochEnd

/-- A TU advance at the Timebase (R7): at a second boundary the commit slot and then the epoch are
looked at first. An epoch end takes the place of the advance, which presents nothing (DESIGN
CHOICE, notes/assumptions/20.md). -/
def takeAdvance (s : State) : State :=
  let a := s.time.slew.advance
  if leavesSecond s.time.instant a.amount then
    match s.time.slot with
    | .pending second _ =>
      let next := (s.time.instant / 256 + 1) * 256
      s.stepTime true second (if s.time.valid then (second : Int) - next else 0)
    | .empty => if Config.lastSecond ≤ s.time.instant then epochEnd s else moveInstant a s
  else moveInstant a s

/-- The prescaler counts an advance it hands on; every 256th is an oscillator second, marked for the
Lease Unit and the four Port Controllers (R1, R4). -/
def countAdvance (s : State) : State :=
  let m := s.transit.marks
  let m := { m with advances := m.advances - 1 }
  if s.osc.secondCount + 1 < 256 then
    { s with osc := { s.osc with secondCount := s.osc.secondCount + 1 }
             transit := { s.transit with marks := m } }
  else
    { s with osc := { s.osc with secondCount := 0 }
             transit := { s.transit with marks :=
               { m with leaseSeconds := m.leaseSeconds + 1, portSeconds := m.portSeconds.map (· + 1) } } }

/-- TU_ADVANCE (R7). DEDUCED (notes/assumptions/12.md). -/
def execTuAdvance (s : State) : Host.Outcome State Fault Refusal := .next (takeAdvance (countAdvance s))

/-- The prescaler at a trim window start, with the advances that a negative trim hands on (R2, R3). -/
def Prescaler.windowStart (o : Prescaler) : Prescaler × Nat :=
  let t := o.pendingTrim
  let o := { o with windowPos := 0, trim := t, skip := t.toNat }
  let sum := o.residue + (-t).toNat
  if sum < 128 then ({ o with residue := sum }, 0) else ({ o with residue := sum - 128 }, 1)

/-- TRIM_WINDOW_START (R2). -/
def execTrimWindowStart (s : State) : Host.Outcome State Fault Refusal :=
  let r := s.osc.windowStart
  let m := s.transit.marks
  .next { s with osc := r.1
                 transit := { s.transit with marks :=
                   { m with windowStarts := m.windowStarts - 1, advances := m.advances + r.2 } } }

/-- LEASE_END_CLAIM: the Timebase takes the oldest lease-end claim (R102). -/
def execLeaseEndClaim (s : State) : Host.Outcome State Fault Refusal :=
  .next (match s.transit.leaseEnds with
    | [] => s
    | m :: rest => ({ s with transit := { s.transit with leaseEnds := rest } }).takeLeaseEnd m)

end Sys2Proof.Machine
end

