-- ==== Sys2Proof/Machine/Dispatch.lean ====
section
/-! DEFINITION. The meaning of each command. -/

namespace Sys2Proof.Machine

def exec (i : Instr) (s : State) : Host.Outcome State Fault Refusal :=
  match i with
  | .openReq p h args phase => Sys2Proof.Machine.execOpen p h args s phase
  | .closeReq p h args phase => Sys2Proof.Machine.execClose p h args s phase
  | .pingReq p h args phase => Sys2Proof.Machine.execPing p h args s phase
  | .statusReq p h args phase => Sys2Proof.Machine.execStatus p h args s phase
  | .resyncReq p h args phase => Sys2Proof.Machine.execResync p h args s phase
  | .readTime p h args phase => Sys2Proof.Machine.execReadTime p h args s phase
  | .stageTime p h args phase => Sys2Proof.Machine.execStageTime p h args s phase
  | .commitTime p h args phase => Sys2Proof.Machine.execCommitTime p h args s phase
  | .cancelCommit p h args phase => Sys2Proof.Machine.execCancelCommit p h args s phase
  | .readTrim p h args phase => Sys2Proof.Machine.execReadTrim p h args s phase
  | .setTrim p h args phase => Sys2Proof.Machine.execSetTrim p h args s phase
  | .acquire p h args phase => Sys2Proof.Machine.execAcquire p h args s phase
  | .renew p h args phase => Sys2Proof.Machine.execRenew p h args s phase
  | .release p h args phase => Sys2Proof.Machine.execRelease p h args s phase
  | .create p h args phase => Sys2Proof.Machine.execCreate p h args s phase
  | .arm p h args phase => Sys2Proof.Machine.execArm p h args s phase
  | .suspend p h args phase => Sys2Proof.Machine.execSuspend p h args s phase
  | .resume p h args phase => Sys2Proof.Machine.execResume p h args s phase
  | .delete p h args phase => Sys2Proof.Machine.execDelete p h args s phase
  | .query p h args phase => Sys2Proof.Machine.execQuery p h args s phase
  | .list p h args phase => Sys2Proof.Machine.execList p h args s phase
  | .kick p h args phase => Sys2Proof.Machine.execKick p h args s phase
  | .kickAtNamedPort q => Sys2Proof.Machine.execKickAtNamedPort q s
  | .setQuota p h args phase => Sys2Proof.Machine.execSetQuota p h args s phase
  | .breakLease p h args phase => Sys2Proof.Machine.execBreakLease p h args s phase
  | .purge p h args phase => Sys2Proof.Machine.execPurge p h args s phase
  | .unknownRequest p h body => Sys2Proof.Machine.execUnknownRequest p h body s
  | .overrun p h body => Sys2Proof.Machine.execOverrun p h body s
  | .ack p h body => Sys2Proof.Machine.execAck p h body s
  | .unusedFrame p cls h body => Sys2Proof.Machine.execUnusedFrame p cls h body s
  | .receiveError p chars => Sys2Proof.Machine.execReceiveError p chars s
  | .gap p => Sys2Proof.Machine.execGap p s
  | .breakLine p => Sys2Proof.Machine.execBreak p s
  | .responseFrameStart p rdy => Sys2Proof.Machine.execResponseFrameStart p rdy s
  | .noticeFrameStart p rdy => Sys2Proof.Machine.execNoticeFrameStart p rdy s
  | .resendFrameStart p rdy => Sys2Proof.Machine.execResendFrameStart p rdy s
  | .endOfService p => Sys2Proof.Machine.execEndOfService p s
  | .tuAdvance => Sys2Proof.Machine.execTuAdvance s
  | .trimWindowStart => Sys2Proof.Machine.execTrimWindowStart s
  | .oscillatorSecond sink => Sys2Proof.Machine.execOscillatorSecond sink s
  | .leaseExpiry => Sys2Proof.Machine.execLeaseExpiry s
  | .keepaliveTimeout p => Sys2Proof.Machine.execKeepaliveTimeout p s
  | .tenMsTick => Sys2Proof.Machine.execTenMsTick s
  | .ackTimeout p => Sys2Proof.Machine.execAckTimeout p s
  | .look src => Sys2Proof.Machine.execLook src s
  | .firingClaim => Sys2Proof.Machine.execFiringClaim s
  | .wakeRequest => Sys2Proof.Machine.execWakeRequest s
  | .noticeTaken src => Sys2Proof.Machine.execNoticeTaken src s
  | .searchRunComplete => Sys2Proof.Machine.execSearchRunComplete s
  | .resultClaim => Sys2Proof.Machine.execResultClaim s
  | .stepClaim => Sys2Proof.Machine.execStepClaim s
  | .rescanVisit => Sys2Proof.Machine.execRescanVisit s
  | .rescanEnd => Sys2Proof.Machine.execRescanEnd s
  | .epochEndClaim => Sys2Proof.Machine.execEpochEndClaim s
  | .leaseEndClaim => Sys2Proof.Machine.execLeaseEndClaim s
  | .sessionEndClaim p => Sys2Proof.Machine.execSessionEndClaim p s
  | .releaseClaim p => Sys2Proof.Machine.execReleaseClaim p s
  | .pf asserted straps point => Sys2Proof.Machine.execPf asserted straps s point
  | .rst asserted straps point => Sys2Proof.Machine.execRst asserted straps s point
  | .vddLoss => Sys2Proof.Machine.execVddLoss s
  | .vddGood straps => Sys2Proof.Machine.execVddGood straps s
  | .coldStart pf rst good => Sys2Proof.Machine.execColdStart pf rst s good
  | .noticeFrameEnd p => Sys2Proof.Machine.execNoticeFrameEnd p s
  | .frameHeader p data => Sys2Proof.Machine.execFrameHeader p data s
  | .returnToMarking p => Sys2Proof.Machine.execReturnToMarking p s

end Sys2Proof.Machine
end

