-- ==== Sys2Proof/Machine/Idle.lean ====
section
/-! DEFINITION. What the part does of itself while no command waits: it takes what is on its way
between its blocks, and otherwise lets one crystal cycle pass (R1, R2, R4;
notes/assumptions/3.md). -/

namespace Sys2Proof.Machine

/-- The length of the i-th ten-millisecond tick of a group, counted from 1 (R4). -/
def tickLength (i : Nat) : Nat := if 4 ≤ i ∧ i % 3 = 1 then 327 else 328

/-- The crystal cycles of a group at whose end a tick falls (R4). -/
def tickEnds : List Nat := (List.range 25).map fun i => ((List.range (i + 1)).map fun k => tickLength (k + 1)).sum

/-- One crystal cycle counted into the residue, unless a positive trim leaves it out, with the
advances handed on (R1, R2). -/
def Prescaler.countCycle (o : Prescaler) : Prescaler × Nat :=
  if 0 < o.skip then ({ o with skip := o.skip - 1 }, 0)
  else if o.residue + 1 < 128 then ({ o with residue := o.residue + 1 }, 0)
  else ({ o with residue := 0 }, 1)

/-- One crystal cycle: the residue, the trim window and the group of ticks move on, and the window
starts, advances and ticks they bring about become due (R1, R2, R4). PF and RST are sampled (R172). -/
def crystalCycle (s : State) : State :=
  let r := s.osc.countCycle
  let window := r.1.windowPos + 1
  let tick := r.1.tickPos + 1
  let m := s.transit.marks
  { s with
    standby := s.standby.sampled
    osc := { r.1 with windowPos := window % Config.windowCycles, tickPos := tick % Config.tickGroupCycles }
    transit := { s.transit with marks := { m with
      advances := m.advances + r.2
      windowStarts := m.windowStarts + (if window % Config.windowCycles = 0 then 1 else 0)
      ticks := m.ticks + (if tickEnds.contains tick then 1 else 0) } } }

/-- A port for which a condition holds. -/
def firstPort (f : Port → Bool) : Option Port := Port.all.find? f

/-- A command on condition. -/
def onlyIf (c : Bool) (i : Instr) : Option Instr := if c then some i else none

/-- The command of a request by its code (R182). -/
def requestCommand (p : Port) (h : Header) (phase : Phase) (body : List Byte) : Option Instr :=
  match body with
  | [] => none
  | c :: a =>
    match c.toNat with
    | 0x10 => some (.openReq p h a phase)
    | 0x11 => some (.closeReq p h a phase)
    | 0x12 => some (.pingReq p h a phase)
    | 0x13 => some (.statusReq p h a phase)
    | 0x14 => some (.resyncReq p h a phase)
    | 0x20 => some (.readTime p h a phase)
    | 0x21 => some (.stageTime p h a phase)
    | 0x22 => some (.commitTime p h a phase)
    | 0x23 => some (.cancelCommit p h a phase)
    | 0x24 => some (.readTrim p h a phase)
    | 0x25 => some (.setTrim p h a phase)
    | 0x30 => some (.acquire p h a phase)
    | 0x31 => some (.renew p h a phase)
    | 0x32 => some (.release p h a phase)
    | 0x40 => some (.create p h a phase)
    | 0x41 => some (.arm p h a phase)
    | 0x42 => some (.suspend p h a phase)
    | 0x43 => some (.resume p h a phase)
    | 0x44 => some (.delete p h a phase)
    | 0x45 => some (.query p h a phase)
    | 0x46 => some (.list p h a phase)
    | 0x50 => some (.kick p h a phase)
    | 0x51 => some (.setQuota p h a phase)
    | 0x52 => some (.breakLease p h a phase)
    | 0x53 => some (.purge p h a phase)
    | _ => none

/-- The handing on of a request that waits at a port (R165). -/
def handOn (s : State) (p : Port) : Option Instr :=
  match (s.port p).service with
  | some v => if s.waits p v.header v.body then requestCommand p v.header .handedOn v.body else none
  | none => none

/-- The next thing on its way between the blocks, in the order the model chooses (R81 and R52 hold in
it as in every order of commands). -/
def nextClaim (s : State) : Option Instr :=
  onlyIf (s.noticeReady .lease).isSome (.noticeTaken .lease)
  <|> onlyIf (s.noticeReady .timebase).isSome (.noticeTaken .timebase)
  <|> onlyIf (s.noticeReady .table).isSome (.noticeTaken .table)
  <|> onlyIf (decide (0 < s.transit.wakes)) .wakeRequest
  <|> s.transit.sessionEnds.head?.map .sessionEndClaim
  <|> onlyIf (!s.transit.leaseEnds.isEmpty) .leaseEndClaim
  <|> onlyIf (!s.transit.firings.isEmpty) .firingClaim
  <|> s.transit.looks.head?.map (fun m => .look (if m = .tableEvent then .table else .timebase))
  <|> s.timeClaimReady.map (fun m => match m.claim with
    | .step .. => .stepClaim
    | .epochEnd => .epochEndClaim)
  <|> onlyIf (!s.transit.results.isEmpty) .resultClaim
  <|> s.transit.releases.head?.map .releaseClaim
  <|> s.transit.kicks.head?.map (fun k => .kickAtNamedPort k.named)
  <|> Port.all.findSome? (handOn s)
  <|> (match s.table.mode with
    | .normal => none
    | .rescan r => some (if r.position < 64 then .rescanVisit else .rescanEnd))

/-- The change of a filtered input or the mark of the prescaler that is due next, or the ack timer that
has expired. -/
def nextMark (s : State) : Option Instr :=
  let m := s.transit.marks
  onlyIf s.standby.pfPin.due (.pf (!s.standby.pf) s.pins)
  <|> onlyIf s.standby.rstPin.due (.rst (!s.standby.rst) s.pins)
  <|> onlyIf (decide (0 < m.windowStarts)) .trimWindowStart
  <|> onlyIf (decide (0 < m.advances)) .tuAdvance
  <|> onlyIf (decide (0 < m.leaseSeconds)) (.oscillatorSecond .lease)
  <|> (firstPort fun p => decide (0 < m.portSeconds.get p)).map (fun p => .oscillatorSecond (.port p))
  <|> onlyIf (decide (0 < m.ticks)) .tenMsTick
  <|> (firstPort fun p => s.standby.running && (s.port p).timerExpired).map .ackTimeout

/-- The event the part takes of itself, where one is on its way or due. -/
def nextInternal (s : State) : Option Instr := nextClaim s <|> nextMark s

end Sys2Proof.Machine
end

