-- ==== Sys2Proof/Machine/Step.lean ====
section
/-! DEFINITION. One step of the part, and where the host puts a word's command. -/

namespace Sys2Proof.Machine

/-- One step: the command at the front of the queue is taken and carried out with the queue's rest.
On an empty queue the part works of itself (notes/assumptions/3.md): it takes the next thing on its
way between its blocks, or else lets one crystal cycle pass. -/
def step (s : State) : Host.Outcome State Fault Refusal :=
  match s.pending with
  | c :: rest => exec c { s with pending := rest }
  | [] =>
    match nextInternal s with
    | some c => exec c s
    | none => .next (crystalCycle s)

/-- The state with the command a word spells at the front of its queue; no word of the table spells
one (Sys2Proof.decodeTableWord). -/
def State.withFetchWord (s : State) (nbits w : Nat) : State :=
  match decodeTableWord nbits w with
  | some c => { s with pending := c :: s.pending }
  | none => s

end Sys2Proof.Machine
end

