-- ==== Sys2Proof/Safety.lean ====
section
/-! DEFINITION. The laws the spec states of the part's state, as invariants that every step keeps.
The spec sets several of them apart as one sentence of their own; each docstring names the rule. -/

namespace Sys2Proof.Machine

/-- Every step from a state that satisfies a predicate, and that answers a next state, keeps it. -/
def KeptByStep (Inv : State → Prop) : Prop :=
  ∀ s s' : State, Inv s → step s = .next s' → Inv s'

/-! ### The Oscillator and Prescaler, and the Timebase -/

/-- The ranges of the prescaler's items (R1, R2, R4). -/
structure PrescalerInRange (s : State) : Prop where
  residue : s.osc.residue < 128
  skip : s.osc.skip ≤ 127
  window : s.osc.windowPos < Config.windowCycles
  trim : -128 ≤ s.osc.trim ∧ s.osc.trim ≤ 127
  pendingTrim : -128 ≤ s.osc.pendingTrim ∧ s.osc.pendingTrim ≤ 127
  second : s.osc.secondCount < 256
  tick : s.osc.tickPos < Config.tickGroupCycles

/-- The slew remaining satisfies |R| ≤ 512 and is nonzero while ACTIVE, with a phase below 64 (R119). -/
def SlewLaw : Slew → Prop
  | .idle => True
  | .active r phase => r ≠ 0 ∧ r.natAbs ≤ Config.slewLimit ∧ phase < 64

/-- The commit slot holds a whole second of the epoch (R116). -/
def CommitSlotLaw : CommitSlot → Prop
  | .empty => True
  | .pending second _ => second ≤ Config.lastSecond ∧ second % 256 = 0

/-- The instant lies within the epoch (R6), the slew obeys its law (R119), the slot holds a whole
second (R116), and no slew runs while VALID is false (R12). -/
structure TimebaseLaw (s : State) : Prop where
  instant : s.time.instant ≤ Config.lastInstant
  slew : SlewLaw s.time.slew
  slot : CommitSlotLaw s.time.slot
  idle : s.time.valid = false → s.time.slew = .idle

/-! ### The Schedule Table and its lists -/

/-- A slot's entry is ARMED with a due. -/
def State.armedAt (s : State) (i : SlotNo) (due : Nat) : Prop :=
  ∃ e, s.entry i = some e ∧ e.state = .armed due

/-- A slot's entry is SEARCHING. -/
def State.searchingAt (s : State) (i : SlotNo) : Prop :=
  ∃ e, s.entry i = some e ∧ e.state = .searching

/-- The Due List holds exactly the ARMED entries, each once, in ascending (due count, slot) order
(R46). -/
structure DueListLaw (s : State) : Prop where
  ordered : s.dueList.Pairwise fun a b => a.before b = true
  exact : ∀ i due, (⟨due, i⟩ : DueItem) ∈ s.dueList ↔ s.armedAt i due

/-- The Search Queue holds exactly the SEARCHING entries, each once, under the generation of their
slot (R68). -/
structure SearchQueueLaw (s : State) : Prop where
  once : (s.search.jobs.map (·.slot)).Nodup
  exact : ∀ i, (∃ j ∈ s.search.jobs, j.slot = i) ↔ s.searchingAt i
  gens : ∀ j ∈ s.search.jobs, j.gen = (s.slot j.slot).gen

/-- The engine is PAUSED exactly while the port domain is held, IDLE only over an empty queue, and
RUNNING only the head (R69). -/
def EngineLaw (s : State) : Prop :=
  match s.search.engine with
  | .paused => s.standby.running = false
  | .idle => s.standby.running = true ∧ s.search.jobs = []
  | .running i _ => s.standby.running = true ∧ (s.search.jobs.head?.map (·.slot)) = some i

/-- For each port the owned count does not exceed the port's quota, and the four quotas sum to at
most 64 (R20). -/
structure QuotaLaw (s : State) : Prop where
  owned : ∀ p, s.ownedCount p ≤ s.table.quota.get p
  sum : quotaSum s.table.quota ≤ 64

/-- A due lies within the epoch. -/
def EntryState.DueInEpoch : EntryState → Prop
  | .armed due => due ≤ Config.lastInstant
  | .suspended (some due) => due ≤ Config.lastInstant
  | _ => True

/-- A stored absolute start lies within the epoch. -/
def Plan.StartInEpoch : Plan → Prop
  | .once (.absolute c) _ => c ≤ Config.lastInstant
  | .periodic (.absolute c) _ _ => c ≤ Config.lastInstant
  | _ => True

/-- A fired entry's next due lies within the epoch. -/
def FiredState.DueInEpoch : FiredState → Prop
  | .armed due => due ≤ Config.lastInstant
  | _ => True

/-- No entry holds a due beyond the last instant (R29, R57, R130), and no claim on its way carries
one. -/
structure DuesInEpoch (s : State) : Prop where
  entries : ∀ i e, s.entry i = some e → e.state.DueInEpoch ∧ e.plan.StartInEpoch
  firings : ∀ m ∈ s.transit.firings, m.claim.next.DueInEpoch
  results : ∀ c ∈ s.transit.results, ∀ second, c.found = some second → second ≤ Config.lastInstant

/-- The counts of an entry (R22): a ONCE entry's repeat limit is 1; an unlimited entry has no remaining
count and never ends with COUNT_DONE; a limited one has a remaining count of at most the limit, which
is 0 exactly when the entry is SPENT with COUNT_DONE; and the fire total saturates at 65,535. -/
structure Entry.CountsLaw (e : Entry) : Prop where
  once : ∀ start pol, e.plan = .once start pol → e.repeatLimit = 1
  unlimited : e.repeatLimit = 0 → e.remaining = none ∧ e.state ≠ .spent .countDone
  limited : 0 < e.repeatLimit → ∃ r, e.remaining = some r ∧ r ≤ e.repeatLimit ∧
    (r = 0 ↔ e.state = .spent .countDone)
  total : e.fireTotal ≤ 65535

/-- Every entry's counts obey R22, and a firing claim on its way represents at least one occurrence
(R56). -/
structure CountsLaw (s : State) : Prop where
  entries : ∀ i e, s.entry i = some e → e.CountsLaw
  firings : ∀ m ∈ s.transit.firings, 1 ≤ m.claim.occurrences

/-- While VALID is false and no epoch-end claim is on its way to the Schedule Table, no entry is
ARMED, SEARCHING or SUSPENDED (R24). -/
def ValidLaw (s : State) : Prop :=
  s.time.valid = false → (∀ m ∈ s.transit.timeClaims, m.claim ≠ .epochEnd) →
    ∀ i e, s.entry i = some e → e.state.live = false

/-- A Timebase claim is a step claim. -/
def TimeMsg.isStep (m : TimeMsg) : Bool :=
  match m.claim with
  | .step .. => true
  | .epochEnd => false

/-- A step claim always finds the mode NORMAL: at most one is on its way, none is while the mode is
RESCAN, and none is while a commit is pending, which itself holds the mode NORMAL (R117, R127). -/
structure StepLaw (s : State) : Prop where
  single : s.transit.timeClaims.countP (·.isStep) ≤ 1
  normal : 0 < s.transit.timeClaims.countP (·.isStep) → s.tableNormal = true
  pending : s.time.slot ≠ .empty →
    s.tableNormal = true ∧ s.transit.timeClaims.countP (·.isStep) = 0
  held : s.tableNormal = true → s.table.heldReleases = []

/-! ### Notice Queues, delivery and sessions -/

/-- A record is a FIRE or MISSED record, of this handle. -/
def Record.firingHandle (r : Record) : Option Handle :=
  match r.content with
  | .firing _ h .. => some h
  | _ => none

/-- A Notice Queue never holds two unsent FIRE-or-MISSED notices for the same handle (R83). -/
def CoalescingLaw (s : State) : Prop :=
  ∀ p, ((s.queue p).unsent.filterMap (·.firingHandle)).Nodup

/-- Every Notice Queue holds at most 16 records, of which at most the session window, never more
than 4, are in flight (R82). That the in-flight records stand ahead is the queue's own form. -/
structure QueueLaw (s : State) : Prop where
  room : ∀ p, (s.queue p).size ≤ Config.queueRoom
  window : ∀ p, (s.queue p).inFlight.length ≤ (s.port p).session.window
  atMostFour : ∀ p, (s.port p).session.window ≤ 4

/-- The session record's options are in range, and a CLOSED session has every option at its default
and no keepalive count (R138). -/
structure SessionLaw (s : State) : Prop where
  options : ∀ p, let x := (s.port p).session
    1 ≤ x.window ∧ x.window ≤ 4 ∧ 1 ≤ x.ackTimeout ∧ x.ackTimeout ≤ 255 ∧ x.retryLimit ≤ 7
      ∧ x.keepalive ≤ 255
  closed : ∀ p, (s.port p).session.isOpen = false →
    (s.port p).session = Session.closed (s.port p).session.lastEnd

/-- Delivery is CLOSED exactly while the session is, its in-flight records carry the consecutive
sequences before the next one, and the ack timer runs exactly in READY with a record in flight (R86,
R87, R90). -/
structure DeliveryLaw (s : State) : Prop where
  closed : ∀ p, (s.port p).delivery.state = .closed ↔ (s.port p).session.isOpen = false
  none : ∀ p, (s.port p).delivery.state = .closed → (s.queue p).inFlight = []
  sequences : ∀ p k (hk : k < (s.queue p).inFlight.length),
    ((s.queue p).inFlight[k]).seq + Fin.ofNat 16 ((s.queue p).inFlight.length - k)
      = (s.port p).delivery.nextSeq
  timer : ∀ p, (s.port p).delivery.timer.isSome = true ↔
    (s.port p).delivery.state = .ready ∧ (s.queue p).inFlight ≠ []
  marks : ∀ p, (s.port p).delivery.state ≠ .ready →
    ∀ x ∈ (s.queue p).inFlight, x.marked = false

/-! ### The Set Lease -/

/-- At most one port holds the Set Lease. That port has an OPEN session, or a session-end claim for
it is on its way; and the commit slot is PENDING only while its committing port holds the lease, or
while a lease-end claim naming that port is on its way (R100). -/
structure LeaseLaw (s : State) : Prop where
  holder : ∀ p, s.lease.holder = some p →
    (s.port p).session.isOpen = true ∨ p ∈ s.transit.sessionEnds
  none : s.lease.holder = none → s.lease.remaining = 0
  range : s.lease.remaining ≤ 255
  pending : ∀ second p, s.time.slot = .pending second p →
    s.lease.holder = some p ∨ ∃ m ∈ s.transit.leaseEnds, m.former = p

/-! ### The port domain -/

/-- While the port domain is held, no session is OPEN, no request is in service, nothing is sent or
received, and no port holds the lease (R149, R164, R170, R173). -/
structure HoldLaw (s : State) : Prop where
  ports : s.standby.running = false → ∀ p, (s.port p).session.isOpen = false ∧
    (s.port p).service = none ∧ (s.port p).tx = .free ∧ (s.port p).rx = .hunt ∧
    (s.port p).cache = none ∧ (s.port p).staging = Staging.absent ∧
    (s.port p).delivery = Delivery.atReset
  lease : s.standby.running = false → s.lease.holder = none
  condition : s.standby.running = !holdCond s.standby.pf s.standby.rst s.standby.vddGood
  flag : s.standby.flag = standbyCond s.standby.pf s.standby.vddGood
  wake : s.standby.wake = true → s.standby.flag = true

end Sys2Proof.Machine
end

