-- ==== Sys2Proof/Safety/Terms.lean ====
section
/-! DEFINITION. The terms the statements share: what a request command carries, when a port takes a
request into service, and the state in which it has its response. -/

namespace Sys2Proof

/-- What a request command carries, with the lengths of R182, whether the session gate of R139 stands
before it, whether it is one of the entry requests of R25, and its phase. -/
structure RequestForm where
  port : Port
  header : Header
  body : List Byte
  lengthOk : Bool
  gated : Bool
  entry : Bool
  phase : Phase
  deriving DecidableEq, Repr

/-- The requests of R182: code, allowed lengths, session gate, entry request. -/
def Instr.request : Instr → Option RequestForm
  | .openReq p h a f => some ⟨p, h, 0x10 :: a, a.length == 6, false, false, f⟩
  | .closeReq p h a f => some ⟨p, h, 0x11 :: a, a.length == 0, true, false, f⟩
  | .pingReq p h a f => some ⟨p, h, 0x12 :: a, decide (a.length ≤ 16), true, false, f⟩
  | .statusReq p h a f => some ⟨p, h, 0x13 :: a, a.length == 0, false, false, f⟩
  | .resyncReq p h a f => some ⟨p, h, 0x14 :: a, a.length == 0, true, false, f⟩
  | .readTime p h a f => some ⟨p, h, 0x20 :: a, a.length == 0, false, false, f⟩
  | .stageTime p h a f => some ⟨p, h, 0x21 :: a, a.length == 8, true, false, f⟩
  | .commitTime p h a f => some ⟨p, h, 0x22 :: a, a.length == 1, true, false, f⟩
  | .cancelCommit p h a f => some ⟨p, h, 0x23 :: a, a.length == 0, true, false, f⟩
  | .readTrim p h a f => some ⟨p, h, 0x24 :: a, a.length == 0, true, false, f⟩
  | .setTrim p h a f => some ⟨p, h, 0x25 :: a, a.length == 2, true, false, f⟩
  | .acquire p h a f => some ⟨p, h, 0x30 :: a, a.length == 1, true, false, f⟩
  | .renew p h a f => some ⟨p, h, 0x31 :: a, a.length == 1, true, false, f⟩
  | .release p h a f => some ⟨p, h, 0x32 :: a, a.length == 0, true, false, f⟩
  | .create p h a f => some ⟨p, h, 0x40 :: a, Machine.createLengthOk (0x40 :: a), true, true, f⟩
  | .arm p h a f =>
    some ⟨p, h, 0x41 :: a, a.length == 2 || a.length == 6 || a.length == 9, true, true, f⟩
  | .suspend p h a f => some ⟨p, h, 0x42 :: a, a.length == 2, true, true, f⟩
  | .resume p h a f => some ⟨p, h, 0x43 :: a, a.length == 2, true, true, f⟩
  | .delete p h a f => some ⟨p, h, 0x44 :: a, a.length == 2, true, true, f⟩
  | .query p h a f => some ⟨p, h, 0x45 :: a, a.length == 3, true, true, f⟩
  | .list p h a f => some ⟨p, h, 0x46 :: a, a.length == 2, true, true, f⟩
  | .kick p h a f => some ⟨p, h, 0x50 :: a, a.length == 1, true, false, f⟩
  | .setQuota p h a f => some ⟨p, h, 0x51 :: a, a.length == 2, true, true, f⟩
  | .breakLease p h a f => some ⟨p, h, 0x52 :: a, a.length == 0, true, false, f⟩
  | .purge p h a f => some ⟨p, h, 0x53 :: a, a.length == 2, true, true, f⟩
  | .kickAtNamedPort _ | .unknownRequest .. | .overrun .. | .ack .. | .unusedFrame ..
  | .receiveError .. | .gap _ | .breakLine _ | .responseFrameStart .. | .noticeFrameStart ..
  | .resendFrameStart .. | .endOfService _ | .tuAdvance | .trimWindowStart | .oscillatorSecond _
  | .leaseExpiry | .keepaliveTimeout _ | .tenMsTick | .ackTimeout _ | .look _ | .firingClaim
  | .wakeRequest | .noticeTaken _ | .searchRunComplete | .resultClaim | .stepClaim | .rescanVisit
  | .rescanEnd | .epochEndClaim | .leaseEndClaim | .sessionEndClaim _ | .releaseClaim _ | .pf ..
  | .rst .. | .vddLoss | .vddGood _ | .coldStart .. | .noticeFrameEnd _ | .frameHeader ..
  | .returnToMarking _ => none

/-- A request command with another phase; every other command as it is. -/
def Instr.inPhase (i : Instr) (f : Phase) : Instr :=
  match i.request with
  | some r => (Machine.requestCommand r.port r.header f r.body).getD i
  | none => i

namespace Machine

/-- The frame of a request reaches a port that receives characters and fits a body (R156), whatever
the port has in service. -/
abbrev State.hears (s : State) (p : Port) (body : List Byte) : Prop :=
  s.listening p = true ∧ body.length ≤ Config.bodyRoom

/-- A port takes a request as a new one: none is in service (R164), and the response cache does not
answer it (R165, check 1). -/
abbrev State.takes (s : State) (p : Port) (h : Header) (body : List Byte) : Prop :=
  s.hears p body ∧ (s.port p).service = none ∧ (s.port p).replays h = none

/-- A port with an OPEN session takes a request as a new one. -/
abbrev State.takesOpen (s : State) (p : Port) (h : Header) (body : List Byte) : Prop :=
  s.takes p h body ∧ (s.port p).session.isOpen = true

/-- The port's controller once it has taken a request into service, no verdict given yet (R163, R164):
the receiver is in HUNT and the keepalive count is reloaded. -/
def PortCtl.serving (c : PortCtl) (h : Header) (body : List Byte) : PortCtl :=
  (c.frameTaken (frameBytes .request h body)).takenIn h body none

/-- The state once a port has taken a request into service. -/
def State.serving (s : State) (p : Port) (h : Header) (body : List Byte) : State :=
  s.onPort p fun c => c.serving h body

/-- The state once a port has taken a request into service and has its response ready, nothing else
being changed. -/
def State.answered (s : State) (p : Port) (h : Header) (body response : List Byte) : State :=
  (s.serving p h body).respond p response

/-- The state in which a request of the Lease Unit meets the holder: in service, with the port's own
session-end claims taken (R109). -/
def State.atLeaseUnit (s : State) (p : Port) (h : Header) (body : List Byte) : State :=
  (s.serving p h body).settleSessionEnds p

/-- The state in which a request that passed the lease gate meets the Timebase: behind the lease-end
claims already on their way (R103). -/
def State.atTimebase (s : State) (p : Port) (h : Header) (body : List Byte) : State :=
  (s.atLeaseUnit p h body).settleLeaseEnds

end Machine
end Sys2Proof
end

