-- ==== Sys2Proof/Certificates/Slice0/Obligations.lean ====
section
/-! DEFINITION. The statements for the provers. Each docstring names the rule it formalises, or says
that it is the model's own choice. -/

section

open Sys2Proof Sys2Proof.Machine

/-! ### The step and the reset -/

/-- A step with a command at the front of the queue carries that command out with the queue's rest
(the block's interface; notes/assumptions/2.md). -/
def Obligations.StepTakesFrontCommand : Prop :=
  ∀ (c : Instr) (s : State), step { s with pending := c :: s.pending } = exec c s

/-- Every command and every step answers a next state, since the spec gives every event an effect
(NOTES.md, Stops); on an empty queue the part takes the next thing on its way between its blocks, or
else counts one crystal cycle, which is the model's choice (notes/assumptions/3.md). -/
def Obligations.EveryStepAnswersNext : Prop :=
  (∀ (c : Instr) (s : State), ∃ t, exec c s = .next t) ∧
  (∀ s : State, ∃ t, step s = .next t) ∧
  (∀ s : State, s.pending = [] → nextInternal s = none → step s = .next (crystalCycle s)) ∧
  (∀ (s : State) (c : Instr), s.pending = [] → nextInternal s = some c → step s = exec c s)

/-- COLD_START puts every retained block in its cold-start state and holds the port domain (R5, R15,
R44, R48, R99, R172, R178), whose items stand at their reset values (R111, R149, R170). The standby
flag is set when filtered PF is asserted or VDD is not good. With VDD good and both inputs
deasserted the port domain then starts in the same event, which is the model's reading
(notes/assumptions/9.md). That the commands waiting in the queue stay is the model's choice
(notes/assumptions/2.md). -/
def Obligations.ColdStartState : Prop :=
  ∀ (s : State) (pf rst : Bool) (good : Option Straps), ∃ t,
    exec (.coldStart pf rst good) s = .next (match good with
      | some straps => if pf || rst then t else t.startDomain straps
      | none => t) ∧
    t.osc = ⟨0, 0, 0, 0, 0, 0, 0⟩ ∧
    t.time = ⟨0, false, .idle, .empty⟩ ∧ calendarView t.time.instant = ⟨0, 1, 1, 0, 0, 0, 0⟩ ∧
    (∀ i, t.slot i = ⟨0, none⟩) ∧ t.table.quota = Quad.const 16 ∧ t.table.mode = .normal ∧
    t.table.heldReleases = [] ∧
    t.dueList = [] ∧ t.search = ⟨[], .paused⟩ ∧
    (∀ p, t.queue p = ⟨[], [], false⟩) ∧
    t.standby = ⟨false, pf || good.isNone, .none, false, pf, rst, good.isSome, ⟨pf, 0⟩, ⟨rst, 0⟩⟩ ∧
    (∀ p, (t.port p).session = Session.closed .none ∧ (t.port p).delivery = ⟨.closed, 0, 0, none⟩ ∧
      (t.port p).staging = Staging.absent ∧ (t.port p).service = none ∧ (t.port p).cache = none) ∧
    t.lease = ⟨none, 0⟩ ∧ t.transit = Transit.empty ∧ t.pending = s.pending

/-- The state after reset satisfies every law that the statements below say is kept. -/
def Obligations.ResetMeetsEveryLaw : Prop :=
  PrescalerInRange State.reset ∧ TimebaseLaw State.reset ∧ DueListLaw State.reset ∧
  SearchQueueLaw State.reset ∧ EngineLaw State.reset ∧ QuotaLaw State.reset ∧
  DuesInEpoch State.reset ∧ ValidLaw State.reset ∧ CountsLaw State.reset ∧ StepLaw State.reset ∧
  CoalescingLaw State.reset ∧ QueueLaw State.reset ∧ SessionLaw State.reset ∧
  DeliveryLaw State.reset ∧ LeaseLaw State.reset ∧ HoldLaw State.reset

/-! ### Laws every step keeps -/

/-- The prescaler's items stay in their ranges, the instant stays within the epoch, the slew and the
commit slot obey their laws, and no slew runs while VALID is false (R1, R2, R6, R12, R116, R119). -/
def Obligations.TimebaseLawsKept : Prop :=
  KeptByStep fun s => PrescalerInRange s ∧ TimebaseLaw s

/-- The Due List holds exactly the ARMED entries, each once, in order (R46). -/
def Obligations.DueListLawKept : Prop := KeptByStep DueListLaw

/-- The Search Queue holds exactly the SEARCHING entries, each once, and the engine runs its head,
is IDLE over an empty queue or PAUSED while the port domain is held (R68, R69). -/
def Obligations.SearchLawsKept : Prop := KeptByStep fun s => SearchQueueLaw s ∧ EngineLaw s

/-- No port owns more entries than its quota, and the quotas sum to at most 64 (R20). -/
def Obligations.QuotaLawKept : Prop := KeptByStep QuotaLaw

/-- No due lies beyond the last instant; and while VALID is false and no epoch-end claim is on its
way, no entry is ARMED, SEARCHING or SUSPENDED (R24, R29, R57, R130). And every entry's counts keep
their law: remaining is 0 exactly when the entry is SPENT with COUNT_DONE (R22). That a claim for
COUNT_DONE does not end an entry of which some remain is the model's choice
(notes/assumptions/14.md). -/
def Obligations.EntryTimesLawsKept : Prop :=
  KeptByStep (fun s => DuesInEpoch s ∧ ValidLaw s) ∧ KeptByStep CountsLaw

/-- A step claim always finds the mode NORMAL, so that two rescans never overlap (R117, R127). -/
def Obligations.StepLawKept : Prop := KeptByStep StepLaw

/-- No Notice Queue ever holds two unsent firing notices of one handle (R83). -/
def Obligations.CoalescingLawKept : Prop := KeptByStep CoalescingLaw

/-- Sessions, delivery, Notice Queues and the held port domain keep their laws together (R82, R86,
R87, R90, R138, R149, R170). -/
def Obligations.PortLawsKept : Prop :=
  KeptByStep fun s => HoldLaw s ∧ SessionLaw s ∧ DeliveryLaw s ∧ QueueLaw s

/-- The law of the lease (R100). -/
def Obligations.LeaseLawKept : Prop := KeptByStep fun s => HoldLaw s ∧ LeaseLaw s

/-! ### The oscillator, the instant and the slew -/

/-- The count and calendar views correspond (R9), weekdays follow one another (R10), and the week
number is that of R11: from the weekday w1 of January 1, the year's first Monday m and the
day-of-year d. -/
def Obligations.CalendarRoundTrip : Prop :=
  (∀ c : Calendar, c.isReal = true → c.toCount ≤ Config.lastInstant ∧ calendarView c.toCount = c) ∧
  (∀ n, n ≤ Config.lastInstant → (calendarView n).isReal = true ∧ (calendarView n).toCount = n ∧
    (calendarView n).weekday = (n / Config.tuPerDay + 5) % 7 + 1 ∧
    (let january1 := (⟨(calendarView n).year, 1, 1, 0, 0, 0, 0⟩ : Calendar).toCount / Config.tuPerDay
     let w1 := (january1 + 5) % 7 + 1
     let m := (8 - w1) % 7
     let d := n / Config.tuPerDay - january1
     (calendarView n).weekNumber = if d < m then 0 else 1 + (d - m) / 7) ∧
    (calendarView n).weekNumber ≤ 53)

/-- The carries of an ordinary or gained advance keep the calendar view equal to the count (R6, R8).
-/
def Obligations.CalendarCarriesFollowCount : Prop :=
  ∀ n amount, 1 ≤ amount → amount ≤ 2 → n + amount ≤ Config.lastInstant →
    (calendarView n).advance amount = calendarView (n + amount)

/-- What n crystal cycles bring about from any phase: each cycle that a positive trim does not
remove is counted into the residue, every 128 of them make one advance due (R1), every 1,048,576
cycles a window start (R2), and a whole group of 8,192 cycles the 25 ticks of R4, of which the 4th,
7th, and every third on to the 25th are 327 cycles long and the others 328; nothing but the
prescaler, its due marks and the samples of PF and RST changes. That the marks wait for their
commands is the model's choice (notes/assumptions/5.md). -/
def Obligations.CrystalCyclesCounted : Prop :=
  ∀ (s : State) (n : Nat), s.osc.residue < 128 → s.osc.windowPos < Config.windowCycles →
    s.osc.tickPos < Config.tickGroupCycles →
    let t := crystalCycle^[n] s
    let counted := n - min n s.osc.skip
    let length (i : Nat) : Nat := if i ∈ [4, 7, 10, 13, 16, 19, 22, 25] then 327 else 328
    let ends : List Nat :=
      (List.range 25).map fun i => ((List.range (i + 1)).map fun k => length (k + 1)).sum
    t = { s with
      osc := t.osc, transit := { s.transit with marks := t.transit.marks }
      standby := { s.standby with pfPin := t.standby.pfPin, rstPin := t.standby.rstPin } } ∧
    t.osc = { s.osc with
      residue := (s.osc.residue + counted) % 128, skip := s.osc.skip - n,
      windowPos := (s.osc.windowPos + n) % Config.windowCycles,
      tickPos := (s.osc.tickPos + n) % Config.tickGroupCycles } ∧
    t.transit.marks = { s.transit.marks with
      advances := s.transit.marks.advances + (s.osc.residue + counted) / 128,
      windowStarts := s.transit.marks.windowStarts + (s.osc.windowPos + n) / Config.windowCycles,
      ticks := t.transit.marks.ticks } ∧
    (s.osc.tickPos + n ≤ Config.tickGroupCycles → t.transit.marks.ticks = s.transit.marks.ticks
      + ends.countP fun e => decide (s.osc.tickPos < e ∧ e ≤ s.osc.tickPos + n)) ∧
    (s.osc.tickPos = 0 → n = 8192 → t.transit.marks.ticks = s.transit.marks.ticks + 25)

/-- TRIM_WINDOW_START copies the pending trim T and applies it: a positive T removes the next T
cycles, a negative T adds to the residue at once and hands on an advance when the sum reaches 128
(R2, R3). That the window position becomes 0 by the command itself is the model's choice
(notes/assumptions/5.md). -/
def Obligations.TrimWindowStarts : Prop :=
  ∀ s : State, ∃ t, exec .trimWindowStart s = .next t ∧
    t = { s with osc := t.osc, transit := { s.transit with marks := t.transit.marks } } ∧
    t.transit.marks = { s.transit.marks with
      windowStarts := s.transit.marks.windowStarts - 1, advances := t.transit.marks.advances } ∧
    (0 ≤ s.osc.pendingTrim → s.osc.residue < 128 →
      t.osc = { s.osc with trim := s.osc.pendingTrim, windowPos := 0, skip := s.osc.pendingTrim.natAbs } ∧
      t.transit.marks.advances = s.transit.marks.advances) ∧
    (s.osc.pendingTrim < 0 → s.osc.residue + s.osc.pendingTrim.natAbs < 128 →
      t.osc = { s.osc with trim := s.osc.pendingTrim, windowPos := 0, skip := 0,
                           residue := s.osc.residue + s.osc.pendingTrim.natAbs } ∧
      t.transit.marks.advances = s.transit.marks.advances) ∧
    (s.osc.pendingTrim < 0 → 128 ≤ s.osc.residue + s.osc.pendingTrim.natAbs →
      t.osc = { s.osc with trim := s.osc.pendingTrim, windowPos := 0, skip := 0,
                           residue := s.osc.residue + s.osc.pendingTrim.natAbs - 128 } ∧
      t.transit.marks.advances = s.transit.marks.advances + 1)

/-- TU_ADVANCE (R7, R13, R14, R117, R120). The prescaler counts the advance and marks an oscillator
second at every 256th (R1, R4). The Timebase then moves the instant by 1, or by 2 or 0 when the slew
corrects this advance; at a second boundary a pending commit takes its place, and out of the last
second with the slot EMPTY it is the epoch end. A commit or the epoch end leaves no SLEW_DONE of the
correction it replaces, which is the model's reading (notes/assumptions/12.md); that the command
uses up a due mark is its choice (notes/assumptions/5.md). That the epoch end by a gained advance
from the count before the last lets no entry due at the last count fire is the model's choice
(notes/assumptions/20.md). -/
def Obligations.TuAdvanceMovesInstant : Prop :=
  ∀ s : State, s.osc.secondCount < 256 → TimebaseLaw s →
    let u := countAdvance s
    let i := s.time.instant
    (s.osc.secondCount < 255 → u = { s with
      osc := { s.osc with secondCount := s.osc.secondCount + 1 },
      transit := { s.transit with marks := { s.transit.marks with
        advances := s.transit.marks.advances - 1 } } }) ∧
    (s.osc.secondCount = 255 → u = { s with
      osc := { s.osc with secondCount := 0 },
      transit := { s.transit with marks := { s.transit.marks with
        advances := s.transit.marks.advances - 1,
        leaseSeconds := s.transit.marks.leaseSeconds + 1,
        portSeconds := s.transit.marks.portSeconds.map (· + 1) } } }) ∧
    -- ordinary: the slew state is IDLE, or ACTIVE short of its 64th advance
    (∀ slew', (s.time.slew = .idle ∧ slew' = .idle ∨
        ∃ r ph, s.time.slew = .active r ph ∧ ph < 63 ∧ slew' = .active r (ph + 1)) →
      (i % 256 < 255 ∨ s.time.slot = .empty ∧ i < Config.lastSecond) →
      exec .tuAdvance s = .next
        (({ u with time := { s.time with instant := i + 1, slew := slew' } }).present (i + 1) none)) ∧
    -- gained
    (∀ r, s.time.slew = .active r 63 → 0 < r →
      (i % 256 < 254 ∨ s.time.slot = .empty ∧ i < Config.lastSecond) →
      let v := { u with time := { s.time with
        instant := i + 2, slew := if r = 1 then .idle else .active (r - 1) 0 } }
      exec .tuAdvance s = .next
        ((if r = 1 then v.handSlewDone else v).present (i + 2) (some (i + 1)))) ∧
    -- held
    (∀ r, s.time.slew = .active r 63 → r < 0 →
      let v := { u with time := { s.time with
        slew := if r = -1 then .idle else .active (r + 1) 0 } }
      exec .tuAdvance s = .next (if r = -1 then v.handSlewDone else v)) ∧
    -- a second boundary with a commit pending
    (∀ second p, s.time.slot = .pending second p →
      (i % 256 = 255 ∧ (∀ r, s.time.slew = .active r 63 → 0 < r) ∨
        i % 256 = 254 ∧ ∃ r, s.time.slew = .active r 63 ∧ 0 < r) →
      let delta : Int := if s.time.valid then (second : Int) - (i / 256 * 256 + 256) else 0
      exec .tuAdvance s = .next
        ((({ u with time := ⟨second, true, .idle, .empty⟩ }).handNotice .timebase
          (.stepped second delta (s.time.slew != Slew.idle)) .openSessions).handTimeClaim true
          (.step delta second))) ∧
    -- the epoch end
    (s.time.slot = .empty →
      (i = 807874559999 ∧ (∀ r, s.time.slew = .active r 63 → 0 < r) ∨
        i = 807874559998 ∧ ∃ r, s.time.slew = .active r 63 ∧ 0 < r) →
      exec .tuAdvance s = .next
        ((({ u with time := ⟨0, false, .idle, .empty⟩ }).handNotice .timebase .epoch
          .openSessions).handTimeClaim true .epochEnd))

/-- A slew of R runs for 64 × |R| advances, which move the instant by R more than as many ordinary
ones would, and not for one fewer (R120). -/
def Obligations.SlewRunsItsLength : Prop :=
  ∀ r : Int, r ≠ 0 → r.natAbs ≤ Config.slewLimit →
    let one (x : Slew × Nat) : Slew × Nat := (x.1.advance.slew, x.2 + x.1.advance.amount)
    (one^[64 * r.natAbs] (.active r 0, 0)).1 = .idle ∧
    ((one^[64 * r.natAbs] (.active r 0, 0)).2 : Int) = 64 * r.natAbs + r ∧
    ∀ n, n < 64 * r.natAbs → (one^[n] (.active r 0, 0)).1 ≠ .idle

/-! ### Reading, staging and setting the time -/

/-- READ_TIME, READ_TRIM and STAGE_TIME answer with the fields of R16, R17, R112 and R183, sampled
together; READ_TIME needs no session, and STAGE_TIME changes the port's staging record alone. A
READ_TRIM taken ahead of a window start that is due reports the old window, at its 31 seconds. -/
def Obligations.TimeReadAndStaged : Prop :=
  (∀ (s : State) (p : Port) (h : Header), s.takes p h [0x20] →
    let c := calendarView s.time.instant
    exec (.readTime p h []) s = .next (s.answered p h [0x20]
      (0x00 :: ([c.year, c.month, c.day, c.hour, c.minute, c.second, c.fraction,
                 c.weekday, c.weekNumber].map byteOf
        ++ [byteOf ((if s.time.valid then 1 else 0) + (if s.time.slew = .idle then 0 else 2)
              + (if s.time.slot = .empty then 0 else 4))]
        ++ intBytes 2 (match s.time.slew with | .idle => 0 | .active r _ => r)
        ++ [match s.time.slot with | .empty => 0xFF | .pending _ q => portByte q])))) ∧
  (∀ (s : State) (p : Port) (h : Header), s.takesOpen p h [0x24] →
    exec (.readTrim p h []) s = .next (s.answered p h [0x24]
      (0x00 :: (intBytes 1 s.osc.trim ++ intBytes 1 s.osc.pendingTrim
        ++ [if 0 < s.transit.marks.windowStarts then 31 else byteOf (s.osc.windowPos / 32768)])))) ∧
  (∀ (s : State) (p : Port) (h : Header) (mask y mo d hr mi se f : Byte),
    let body := [0x21, mask, y, mo, d, hr, mi, se, f]
    s.takesOpen p h body →
    let now := calendarView s.time.instant
    let r := (s.port p).staging
    let field (bit : Nat) (given : Byte) (current : Nat) (old : Option Byte) : Option Byte :=
      if mask.getLsbD bit then some given
      else if mask.getLsbD 7 then some (byteOf current) else old
    let r' : Staging := ⟨field 0 y now.year r.year, field 1 mo now.month r.month,
      field 2 d now.day r.day, field 3 hr now.hour r.hour, field 4 mi now.minute r.minute,
      field 5 se now.second r.second, field 6 f now.fraction r.fraction⟩
    exec (.stageTime p h [mask, y, mo, d, hr, mi, se, f]) s = .next
      (((s.serving p h body).onPort p fun c => { c with staging := r' }).respond p
        (0x00 :: r'.bytes)))

/-- The lease gate of COMMIT_TIME (R103) and the checks past it, in the order of R113. The request
takes the claims on their way ahead of it in its own step, which is the model's reading
(notes/assumptions/6.md); past them, a refused commit changes neither the Timebase nor the staging
record. -/
def Obligations.CommitRefusedInOrder : Prop :=
  ∀ (s : State) (p : Port) (h : Header) (m : Byte), s.takesOpen p h [0x22, m] →
    let g := s.atLeaseUnit p h [0x22, m]
    (g.lease.holder ≠ some p → exec (.commitTime p h [m]) s = .next (g.respond p [0x04])) ∧
    (g.lease.holder = some p →
      let u := s.atTimebase p h [0x22, m]
      let refused (status : Byte) : Prop :=
        exec (.commitTime p h [m]) s = .next (u.respond p [status])
      let busy : Prop := u.table.mode ≠ .normal ∨ u.stepOnWay = true
      (2 < m.toNat → refused 0x08) ∧
      (m.toNat ≤ 2 → busy → refused 0x01) ∧
      (m.toNat ≤ 2 → ¬busy → (u.port p).staging.calendar = none → refused 0x0B) ∧
      (∀ c, m.toNat ≤ 2 → ¬busy → (u.port p).staging.calendar = some c →
        (c.isReal = false → refused 0x08) ∧
        (m = 2 → c.isReal = true → u.time.valid = false → refused 0x0A) ∧
        (m = 2 → c.isReal = true → u.time.valid = true →
          512 < ((c.toCount : Int) - u.time.instant).natAbs → refused 0x08)))

/-- A COMMIT_TIME that passes every check steps the instant, fills the commit slot or starts a slew,
and clears the port's staging record (R113 to R116, R119). The request takes the claims on their way
ahead of it in its own step, which is the model's reading (notes/assumptions/6.md). -/
def Obligations.CommitTakesEffect : Prop :=
  ∀ (s : State) (p : Port) (h : Header) (m : Byte) (c : Calendar), s.takesOpen p h [0x22, m] →
    (s.atLeaseUnit p h [0x22, m]).lease.holder = some p →
    let u := s.atTimebase p h [0x22, m]
    u.table.mode = .normal → u.stepOnWay = false →
    (u.port p).staging.calendar = some c → c.isReal = true →
    let off : Int := (c.toCount : Int) - u.time.instant
    let done (v : State) (fields : List Byte) : Prop :=
      exec (.commitTime p h [m]) s = .next
        ((v.onPort p fun c => { c with staging := Staging.absent }).respond p (0x00 :: m :: fields))
    let delta : Int := if u.time.valid then off else 0
    (m = 0 → done
      ((({ u with time := ⟨c.toCount, true, .idle, .empty⟩ }).handNotice .timebase
        (.stepped c.toCount delta (u.time.slew != Slew.idle)) .openSessions).handTimeClaim false
        (.step delta c.toCount)) (intBytes 6 delta)) ∧
    (m = 1 → done
      { u with time := { u.time with slot := .pending (c.toCount / 256 * 256) p } } []) ∧
    (m = 2 → u.time.valid = true → off ≠ 0 → off.natAbs ≤ 512 → done
      { u with time := { u.time with slot := .empty, slew := .active off 0 } } []) ∧
    (m = 2 → u.time.valid = true → off = 0 → done
      (({ u with time := { u.time with slot := .empty, slew := .idle } }).handNotice .timebase
        .slewDone .openSessions) [])

/-- CANCEL_COMMIT empties the slot and stops the slew, reporting what it found (R122); SET_TRIM
writes the pending trim, or refuses a value outside −128 to +127 (R123). Each is refused NO_LEASE at
the gate from a port that does not hold the lease. The request takes the claims on their way ahead
of it in its own step, which is the model's reading (notes/assumptions/6.md). -/
def Obligations.CancelAndTrim : Prop :=
  (∀ (s : State) (p : Port) (h : Header), s.takesOpen p h [0x23] →
    let g := s.atLeaseUnit p h [0x23]
    let u := s.atTimebase p h [0x23]
    let outcome : Byte :=
      match u.time.slot, u.time.slew with
      | .empty, .idle => 0x00
      | .pending _ _, .idle => 0x01
      | .empty, .active _ _ => 0x02
      | .pending _ _, .active _ _ => 0x03
    (g.lease.holder ≠ some p → exec (.cancelCommit p h []) s = .next (g.respond p [0x04])) ∧
    (g.lease.holder = some p → exec (.cancelCommit p h []) s = .next
      (({ u with time := { u.time with slot := .empty, slew := .idle } }).respond p
        [0x00, outcome]))) ∧
  (∀ (s : State) (p : Port) (h : Header) (hi lo : Byte), s.takesOpen p h [0x25, hi, lo] →
    let g := s.atLeaseUnit p h [0x25, hi, lo]
    let u := s.atTimebase p h [0x25, hi, lo]
    let t : Int := (hi ++ lo : BitVec 16).toInt
    let answers (v : State) : Prop := exec (.setTrim p h [hi, lo]) s = .next v
    (g.lease.holder ≠ some p → answers (g.respond p [0x04])) ∧
    (g.lease.holder = some p → -128 ≤ t ∧ t ≤ 127 →
      answers (({ u with osc := { u.osc with pendingTrim := t } }).respond p [0x00])) ∧
    (g.lease.holder = some p → t < -128 ∨ 127 < t → answers (u.respond p [0x08])))

/-! ### The Set Lease -/

/-- ACQUIRE (R104): refused for a duration of 0, granted when no port holds the lease, renewed for
its holder, and refused LEASE_HELD with the holder named otherwise. The request takes the claims on
their way ahead of it in its own step, which is the model's reading (notes/assumptions/6.md). -/
def Obligations.AcquireDecided : Prop :=
  ∀ (s : State) (p : Port) (h : Header) (d : Byte), s.takesOpen p h [0x30, d] →
    let u := s.atLeaseUnit p h [0x30, d]
    let answers (t : State) : Prop := exec (.acquire p h [d]) s = .next t
    (d = 0 → answers (u.respond p [0x08])) ∧
    (d ≠ 0 → u.lease.holder = none →
      answers (({ u with lease := ⟨some p, d.toNat⟩ }).respond p [0x00, 0x01])) ∧
    (d ≠ 0 → u.lease.holder = some p →
      answers (({ u with lease := ⟨some p, d.toNat⟩ }).respond p [0x00, 0x02])) ∧
    (∀ q, d ≠ 0 → u.lease.holder = some q → q ≠ p → answers (u.respond p [0x05, portByte q]))

/-- RENEW and RELEASE: refused NO_LEASE at the gate from a port that does not hold the lease, and
from the holder as R105 and R106 give. BREAK_LEASE, in the order of R108. The request takes the
claims on their way ahead of it in its own step, which is the model's reading
(notes/assumptions/6.md). -/
def Obligations.RenewReleaseAndBreak : Prop :=
  (∀ (s : State) (p : Port) (h : Header) (d : Byte), s.takesOpen p h [0x31, d] →
    let u := s.atLeaseUnit p h [0x31, d]
    let answers (t : State) : Prop := exec (.renew p h [d]) s = .next t
    (u.lease.holder ≠ some p → answers (u.respond p [0x04])) ∧
    (u.lease.holder = some p → d = 0 → answers (u.respond p [0x08])) ∧
    (u.lease.holder = some p → d ≠ 0 →
      answers (({ u with lease := ⟨some p, d.toNat⟩ }).respond p [0x00]))) ∧
  (∀ (s : State) (p : Port) (h : Header), s.takesOpen p h [0x32] →
    let u := s.atLeaseUnit p h [0x32]
    (u.lease.holder ≠ some p → exec (.release p h []) s = .next (u.respond p [0x04])) ∧
    (u.lease.holder = some p →
      exec (.release p h []) s = .next ((u.endLease none).respond p [0x00]))) ∧
  (∀ (s : State) (p : Port) (h : Header), s.takesOpen p h [0x52] →
     let u := s.atLeaseUnit p h [0x52]
     let answers (t : State) : Prop := exec (.breakLease p h []) s = .next t
     (p ≠ s.supervisor → answers (u.respond p [0x03])) ∧
     (p = s.supervisor → u.lease.holder = none → answers (u.respond p [0x07])) ∧
     (∀ q, p = s.supervisor → u.lease.holder = some q →
       answers ((u.endLease (some .broken)).respond p [0x00, portByte q])))

/-- An oscillator second at the Lease Unit counts a held lease down, and at 0 ends it with cause
EXPIRED (R107); with no holder, or while the port domain is held, it does nothing there.
LEASE_EXPIRY is the second that finds 0. Every end of the lease clears the holder, hands the Notice
Unit the LEASE notice of its cause (none for RELEASE) and then hands the Timebase the lease-end
claim (R101). SESSION_END_CLAIM ends the lease of a port that holds it and does nothing else (R109);
LEASE_END_CLAIM drops a pending commit with COMMIT_DROPPED to its committing port and finds an EMPTY
slot otherwise (R102). What a request finds at the Lease Unit
and at the Timebase: the port's own session-end claims on their way have been taken, which ends its
lease with cause RESET (R109), and past the gate every lease-end claim on its way, in order, as
LEASE_END_CLAIM takes it (R103); with none on its way nothing is taken. That this happens in the
request's own step is the model's reading (notes/assumptions/6.md). That the seconds use up due marks
is the model's choice (notes/assumptions/5.md). The stamps are the model's
(notes/assumptions/4.md). -/
def Obligations.LeaseEndsHandOn : Prop :=
  (∀ s : State,
     let u := { s with transit := { s.transit with marks := { s.transit.marks with
       leaseSeconds := s.transit.marks.leaseSeconds - 1 } } }
     (s.standby.running = false ∨ s.lease.holder = none →
       exec (.oscillatorSecond .lease) s = .next u) ∧
     (∀ p n, s.standby.running = true → s.lease = ⟨some p, n + 1⟩ →
       exec (.oscillatorSecond .lease) s = .next { u with lease := ⟨some p, n⟩ }) ∧
     (∀ p, s.standby.running = true → s.lease = ⟨some p, 0⟩ →
       exec (.oscillatorSecond .lease) s = .next (u.endLease (some .expired)) ∧
       exec .leaseExpiry s = .next (u.endLease (some .expired)))) ∧
  (∀ (s : State) (p : Port), s.lease.holder = some p →
    s.endLease none = ({ s with lease := ⟨none, 0⟩ }).handLeaseEnd p ∧
    ∀ cause, s.endLease (some cause) = (({ s with lease := ⟨none, 0⟩ }).handNotice .lease
      (.lease cause) (.ports (PortSet.single p))).handLeaseEnd p) ∧
  (∀ (s : State) (p : Port), p ∈ s.transit.sessionEnds →
    let u := { s with transit := { s.transit with sessionEnds := s.transit.sessionEnds.erase p } }
    (s.lease.holder = some p →
      exec (.sessionEndClaim p) s = .next (u.endLease (some .reset))) ∧
    (s.lease.holder ≠ some p → exec (.sessionEndClaim p) s = .next u)) ∧
  (∀ (s : State) (m : LeaseEndMsg) (rest : List LeaseEndMsg), s.transit.leaseEnds = m :: rest →
    let u := { s with transit := { s.transit with leaseEnds := rest, timebaseAfter := m.stamp } }
    (s.time.slot = .empty → exec .leaseEndClaim s = .next u) ∧
    (∀ second q, s.time.slot = .pending second q → exec .leaseEndClaim s = .next
      (({ u with time := { s.time with slot := .empty } }).handNotice .timebase .commitDropped
        (.ports (PortSet.single q))))) ∧
  (∀ (s : State) (p : Port),
    let u := { s with transit := { s.transit with
      sessionEnds := s.transit.sessionEnds.filter (· != p) } }
    (p ∉ s.transit.sessionEnds → s.settleSessionEnds p = s) ∧
    (p ∈ s.transit.sessionEnds → s.lease.holder = some p →
      s.settleSessionEnds p = u.endLease (some .reset)) ∧
    (p ∈ s.transit.sessionEnds → s.lease.holder ≠ some p → s.settleSessionEnds p = u)) ∧
  (∀ s : State, (s.transit.leaseEnds = [] → s.settleLeaseEnds = s) ∧
    (s.transit.leaseEnds ≠ [] → ∃ t, exec .leaseEndClaim s = .next t ∧
      t.transit.leaseEnds.length + 1 = s.transit.leaseEnds.length ∧
      s.settleLeaseEnds = t.settleLeaseEnds)) ∧
  (∀ (s : State) (p : Port) (h : Header) (body : List Byte),
    s.atLeaseUnit p h body = (s.serving p h body).settleSessionEnds p ∧
    s.atTimebase p h body = (s.atLeaseUnit p h body).settleLeaseEnds) ∧
  (∀ (s : State) (p : Port), s.handLeaseEnd p = { s with transit := { s.transit with
    leaseEnds := s.transit.leaseEnds ++ [⟨s.transit.stamp, p⟩], stamp := s.transit.stamp + 1 } })

/-! ### Requests at the Port Controller, and sessions -/

/-- The checks a Port Controller makes of a new request before it hands it on: an undefined code is
refused UNKNOWN, an unsuitable length BAD_LENGTH, and without a session every request but OPEN,
STATUS and READ_TIME is refused NO_SESSION; a refused request changes nothing else (R139, R165,
R182). One that passes can wait in service to be handed on, and its acceptance and its handing on
together do what the whole request does; with no such request waiting there is nothing to hand on
(R148, R165; that a command has these phases is the model's choice, notes/assumptions/6.md). What a
request in service with its response is: the port's receiver is in HUNT, its keepalive count is
reloaded (R146), its buffer holds the request and the response (R164, R165); the cache, the
transmitter, delivery, the staging record and every other port and block are as they were. -/
def Obligations.PortControllerRefusals : Prop :=
  (∀ (s : State) (p : Port) (h : Header) (body : List Byte), s.takes p h body →
    codeUndefined body = true →
    exec (.unknownRequest p h body) s = .next (s.answered p h body [0x0C])) ∧
  (∀ (i : Instr) (r : RequestForm) (s : State), i.request = some r → r.phase ≠ .handedOn →
    s.takes r.port r.header r.body →
    (r.lengthOk = false → exec i s = .next (s.answered r.port r.header r.body [0x0D])) ∧
    (r.lengthOk = true → r.gated = true → (s.port r.port).session.isOpen = false →
      exec i s = .next (s.answered r.port r.header r.body [0x02]))) ∧
  (∀ (i : Instr) (r : RequestForm) (s : State), i.request = some r →
    s.takes r.port r.header r.body → r.lengthOk = true →
    (r.gated = true → (s.port r.port).session.isOpen = true) →
    (r.phase = .accepted → exec i s = .next (s.serving r.port r.header r.body)) ∧
    (r.phase = .whole → (∀ k ∈ s.transit.kicks, k.sender = r.port → k.live = false) →
      exec (i.inPhase .accepted) s = .next (s.serving r.port r.header r.body) ∧
      exec (i.inPhase .handedOn) (s.serving r.port r.header r.body) = exec i s)) ∧
  (∀ (i : Instr) (r : RequestForm) (s : State), i.request = some r → r.phase = .handedOn →
    (s.standby.running = false ∨ (s.port r.port).service ≠ some ⟨r.header, r.body, none⟩ ∨
      ∃ k ∈ s.transit.kicks, k.live = true ∧ k.sender = r.port) →
    exec i s = .next s) ∧
  (∀ (s : State) (p : Port) (h : Header) (body response : List Byte),
     let t := s.answered p h body response
     t = { s with ports := s.ports.set p (t.port p) } ∧
     (t.port p).service = some ⟨h, body, some ⟨response, false⟩⟩ ∧ (t.port p).rx = .hunt ∧
     ((s.port p).session.isOpen = true → 0 < (s.port p).session.keepalive →
       (t.port p).session = { (s.port p).session with
         keepCount := some (s.port p).session.keepalive }) ∧
     ((s.port p).session.isOpen = false ∨ (s.port p).session.keepalive = 0 →
       (t.port p).session = (s.port p).session) ∧
     ((s.port p).rx = .hunt → (t.port p).lastError = (s.port p).lastError) ∧
     (t.port p).cache = (s.port p).cache ∧ (t.port p).tx = (s.port p).tx ∧
     (t.port p).delivery = (s.port p).delivery ∧ (t.port p).staging = (s.port p).staging ∧
     (t.port p).rdy = (s.port p).rdy ∧ (t.port p).awaitMark = (s.port p).awaitMark ∧
     ∀ q, q ≠ p → t.port q = s.port q)

/-- A request with the retry flag and the cached sequence is answered with the cached body, whatever
it asks, and reaches no other block (R165, R167). A request that finds another in service is an
overrun: it is discarded, sets last-error to OVERRUN and reloads nothing (R161, R164). -/
def Obligations.ReplayAndOverrun : Prop :=
  (∀ (i : Instr) (r : RequestForm) (s : State) (k : Cached), i.request = some r →
    r.phase ≠ .handedOn → s.hears r.port r.body → (s.port r.port).service = none →
    (s.port r.port).cache = some k → r.header.retry = true → r.header.seq = k.seq →
    exec i s = .next (s.onPort r.port fun c =>
      { c.serving r.header r.body with service := some ⟨r.header, r.body, some ⟨k.body, true⟩⟩ })) ∧
  (∀ (i : Instr) (r : RequestForm) (s : State), i.request = some r → r.phase ≠ .handedOn →
    s.hears r.port r.body → (s.port r.port).service.isSome = true →
    exec i s = .next (s.onPort r.port fun c =>
      { c.frameTaken (frameBytes .request r.header r.body) with lastError := .overrun })) ∧
  (∀ (s : State) (p : Port) (h : Header) (body : List Byte),
    s.hears p body → (s.port p).service.isSome = true →
    exec (.overrun p h body) s = .next (s.onPort p fun c =>
      { c.frameTaken (frameBytes .request h body) with lastError := .overrun }))

/-- OPEN, from a CLOSED or an OPEN session (R140, R141): a named option takes its value and another
its default; out of range the OPEN is refused BAD_VALUE. One that passes empties the cache, flushes
the queue when asked, resynchronises delivery, opens the session and reports it. That the response
reports the records and the LOSS flag as they stand after the resynchronisation is the model's
choice (notes/assumptions/21.md). -/
def Obligations.OpenCarriedOut : Prop :=
  ∀ (s : State) (p : Port) (h : Header) (mask w a r k m : Byte),
    let body := [0x10, mask, w, a, r, k, m]
    s.takes p h body →
    let opt (bit : Nat) (given : Byte) (default : Nat) : Nat :=
      if mask.getLsbD bit then given.toNat else default
    let attention := opt 4 m 1
    let x : Session :=
      { isOpen := true, window := opt 0 w 2, ackTimeout := opt 1 a 50, retryLimit := opt 2 r 3,
        keepalive := opt 3 k 0, attention := attention == 1,
        keepCount := if opt 3 k 0 = 0 then none else some (opt 3 k 0),
        lastEnd := (s.port p).session.lastEnd }
    let inRange : Prop := 1 ≤ x.window ∧ x.window ≤ 4 ∧ 1 ≤ x.ackTimeout ∧ x.retryLimit ≤ 7 ∧
      attention ≤ 1
    let q := if mask.getLsbD 7 then ⟨[], [], false⟩ else (s.queue p).returnToUnsent
    (inRange → exec (.openReq p h [mask, w, a, r, k, m]) s = .next
      ({ s with
        queues := s.queues.set p q
        ports := s.ports.set p { (s.port p).serving h body with
          session := x, cache := none, delivery := ⟨.ready, 0, 0, none⟩
          service := some ⟨h, body, some ⟨[0x00, portByte p, portByte s.supervisor, byteOf x.window,
            byteOf x.ackTimeout, byteOf x.retryLimit, byteOf x.keepalive, byteOf attention,
            byteOf q.size, flagByte q.loss, x.lastEnd.code], false⟩⟩ } })) ∧
    (¬inRange → exec (.openReq p h [mask, w, a, r, k, m]) s = .next (s.answered p h body [0x08]))

/-- A teardown makes the session CLOSED with its options at their defaults and the cause written,
empties the cache, clears the staging record, closes delivery with its in-flight records returned to
unsent, takes any request out of service, and hands on the session-end and the release claim (R96,
R147, R148). CLOSE is a teardown whose own response is ready after it (R142). A request that waited
to be handed on is handed on no further and has no effect (R148). -/
def Obligations.CloseTearsDown : Prop :=
  (∀ (s : State) (p : Port) (cause : SessionEnd),
    let t := s.teardown p cause
    t = { s with queues := t.queues, ports := t.ports, transit := t.transit } ∧
    t.queue p = (s.queue p).returnToUnsent ∧ (∀ q, q ≠ p → t.queue q = s.queue q) ∧
    t.port p = { s.port p with
      session := ⟨false, 2, 50, 3, 0, true, none, cause⟩, delivery := ⟨.closed, 0, 0, none⟩
      staging := ⟨none, none, none, none, none, none, none⟩, service := none, cache := none
      tx := (t.port p).tx } ∧
    (∀ f b, (s.port p).tx = .response f b → (t.port p).tx = .response f false) ∧
    ((∀ f b, (s.port p).tx ≠ .response f b) → (t.port p).tx = (s.port p).tx) ∧
    (∀ q, q ≠ p → t.port q = s.port q) ∧
    t.transit = { s.transit with
      sessionEnds := s.transit.sessionEnds ++ [p], releases := s.transit.releases ++ [p]
      kicks := t.transit.kicks } ∧
    t.transit.kicks = s.transit.kicks.map fun k =>
      { k with live := k.live && decide (k.sender ≠ p) }) ∧
  (∀ (s : State) (p : Port) (cause : SessionEnd) (i : Instr) (r : RequestForm),
    i.request = some r → r.phase = .handedOn → r.port = p →
    exec i (s.teardown p cause) = .next (s.teardown p cause)) ∧
  (∀ (s : State) (p : Port) (h : Header), s.takesOpen p h [0x11] →
    exec (.closeReq p h []) s = .next (((s.serving p h [0x11]).teardown p .close).onPort p fun c =>
      { c with service := some ⟨h, [0x11], some ⟨[0x00], false⟩⟩ }))

/-- PING echoes its data (R143). RESYNC resynchronises delivery and reports the records then in the
queue (R94, R144). STATUS needs no session, reports the port and clears its last receive error
(R145). That it reads the lease as it stands, ahead of a session-end claim of the port still on its
way, is the model's choice (notes/assumptions/24.md). -/
def Obligations.PingResyncStatus : Prop :=
  (∀ (s : State) (p : Port) (h : Header) (data : List Byte), data.length ≤ 16 →
    s.takesOpen p h (0x12 :: data) →
    exec (.pingReq p h data) s = .next (s.answered p h (0x12 :: data) (0x00 :: data))) ∧
  (∀ (s : State) (p : Port) (h : Header), s.takesOpen p h [0x14] →
    let q := (s.queue p).returnToUnsent
    exec (.resyncReq p h []) s = .next
      ({ s with
        queues := s.queues.set p q
        ports := s.ports.set p { (s.port p).serving h [0x14] with
          delivery := ⟨.ready, 0, 0, none⟩
          service := some ⟨h, [0x14], some ⟨[0x00, byteOf q.size], false⟩⟩ } })) ∧
  (∀ (s : State) (p : Port) (h : Header), s.takes p h [0x13] →
    let c := (s.port p).serving h [0x13]
    let x := c.session
    let q := s.queue p
    exec (.statusReq p h []) s = .next
      ({ s with ports := s.ports.set p { c with
          lastError := .none
          service := some ⟨h, [0x13], some ⟨[0x00, portByte p, portByte s.supervisor,
            flagByte x.isOpen, byteOf x.window, byteOf x.ackTimeout, byteOf x.retryLimit,
            byteOf x.keepalive, flagByte x.attention, byteOf (x.keepCount.getD 0), x.lastEnd.code,
            c.delivery.state.code, byteOf q.inFlight.length, byteOf q.unsent.length,
            byteOf c.delivery.nextSeq.val, byteOf c.delivery.retries, flagByte q.loss,
            c.lastError.code, portOrNone s.lease.holder, byteOf s.lease.remaining],
            false⟩⟩ } }))

/-- KICK at the supervisor's controller, in the order of R151, and KICK_AT_NAMED_PORT: an OPEN
session is torn down with cause KICK and the supervisor answered CLOSED, a CLOSED one gives
BAD_STATE; the verdict reaches the supervisor's port while its KICK is still in service (R148). That
the answer to a sender torn down meanwhile is dropped is the model's reading
(notes/assumptions/19.md). -/
def Obligations.KickDecided : Prop :=
  (∀ (s : State) (p : Port) (h : Header) (b : Byte), s.takesOpen p h [0x50, b] →
    let u := s.serving p h [0x50, b]
    let answers (t : State) : Prop := exec (.kick p h [b]) s = .next t
    (p ≠ s.supervisor → answers (u.respond p [0x03])) ∧
    (p = s.supervisor → 3 < b.toNat → answers (u.respond p [0x08])) ∧
    (p = s.supervisor → b = portByte p → answers ((u.teardown p .close).onPort p fun c =>
      { c with service := some ⟨h, [0x50, b], some ⟨[0x00, 0x01], false⟩⟩ })) ∧
    (∀ q, p = s.supervisor → q ≠ p → b = portByte q → answers
      { u with transit := { s.transit with kicks := s.transit.kicks ++ [⟨p, q, true⟩] } })) ∧
  (∀ (s : State) (q : Port) (k : KickMsg), s.transit.kicks.find? (·.named == q) = some k →
    let u := { s with transit := { s.transit with kicks := s.transit.kicks.erase k } }
    let v := u.teardown q .kick
    ((s.port q).session.isOpen = true → exec (.kickAtNamedPort q) s = .next
      (if k.live then v.respond k.sender [0x00, 0x01] else v)) ∧
    ((s.port q).session.isOpen = false → exec (.kickAtNamedPort q) s = .next
      (if k.live then u.respond k.sender [0x07] else u)))

/-- An oscillator second at a Port Controller counts a held keepalive count down, and at 0 tears the
session down with cause TIMEOUT (R146); without a count, or while the port domain is held, it does
nothing there. KEEPALIVE_TIMEOUT is the second that finds 0. That the seconds use up due marks is
the model's choice (notes/assumptions/5.md). -/
def Obligations.KeepaliveSecondsCount : Prop :=
  ∀ (s : State) (p : Port),
    let u := { s with transit := { s.transit with marks := { s.transit.marks with
      portSeconds := s.transit.marks.portSeconds.set p (s.transit.marks.portSeconds.get p - 1) } } }
    let second (t : State) : Prop := exec (.oscillatorSecond (.port p)) s = .next t
    (s.standby.running = false ∨ (s.port p).session.isOpen = false ∨
      (s.port p).session.keepCount = none → second u) ∧
    (∀ n, s.standby.running = true → (s.port p).session.isOpen = true →
      (s.port p).session.keepCount = some (n + 1) → second (u.onPort p fun c =>
        { c with session := { c.session with keepCount := some n } })) ∧
    (s.standby.running = true → (s.port p).session.isOpen = true →
      (s.port p).session.keepCount = some 0 → second (u.teardown p .timeout) ∧
        exec (.keepaliveTimeout p) s = .next (u.teardown p .timeout))

/-! ### Entry requests -/

/-- The first checks of an entry request (R19, R25, R26, R133): BUSY while the mode is RESCAN;
BAD_HANDLE for a handle that is not current; DENIED for an owner's request from another port, and
for PURGE from a port that is not the supervisor. A handle whose slot or generation is
out of range is taken as not current (notes/assumptions/15.md). -/
def Obligations.EntryRequestChecks : Prop :=
  (∀ (i : Instr) (r : RequestForm) (s : State), i.request = some r → r.entry = true →
    r.phase = .whole → r.lengthOk = true → s.takesOpen r.port r.header r.body → s.table.mode ≠ .normal →
    exec i s = .next (s.answered r.port r.header r.body [0x01])) ∧
  (∀ (s : State) (p : Port) (h : Header) (a b x : Byte) (more : List Byte),
    s.table.mode = .normal → (handleAt [0, a, b] 1).bind s.current = none →
    let bad (i : Instr) (body : List Byte) : Prop :=
      s.takesOpen p h body → exec i s = .next (s.answered p h body [0x09])
    (more.length = 0 ∨ more.length = 4 ∨ more.length = 7 →
      bad (.arm p h (a :: b :: more)) (0x41 :: a :: b :: more)) ∧
    bad (.suspend p h [a, b]) [0x42, a, b] ∧ bad (.resume p h [a, b]) [0x43, a, b] ∧
    bad (.delete p h [a, b]) [0x44, a, b] ∧ bad (.query p h [a, b, x]) [0x45, a, b, x] ∧
    bad (.purge p h [a, b]) [0x53, a, b]) ∧
  (∀ (s : State) (p : Port) (h : Header) (n : Handle) (e : Entry) (more : List Byte),
    s.table.mode = .normal → s.current n = some e →
    let a := byteOf n.slot.val
    let b := byteOf n.gen.val
    let denied (i : Instr) (body : List Byte) : Prop :=
      s.takesOpen p h body → exec i s = .next (s.answered p h body [0x03])
    (e.owner ≠ p →
      (more.length = 0 ∨ more.length = 4 ∨ more.length = 7 →
        denied (.arm p h (a :: b :: more)) (0x41 :: a :: b :: more)) ∧
      denied (.suspend p h [a, b]) [0x42, a, b] ∧ denied (.resume p h [a, b]) [0x43, a, b] ∧
      denied (.delete p h [a, b]) [0x44, a, b]) ∧
    (p ≠ s.supervisor → denied (.purge p h [a, b]) [0x53, a, b]))

/-- The value checks of CREATE on a body whose length suits it (R27, R181): the description is
refused exactly for an undefined kind, an absolute start that is no real date, a period of 0, a
pattern field out of range, an empty delivery set, or an undefined step or orphan policy. -/
def Obligations.CreateValueChecks : Prop :=
  ∀ (p : Port) (body : List Byte), createLengthOk body = true →
    let kind := byteAt body 1
    let options := byteAt body 2
    let relative := options.getLsbD 0
    let delivery :=
      if kind = 2 then byteAt body 13
      else byteAt body (7 + (if relative then 4 else 7) + (if kind = 1 then 4 else 0))
    let outOf (i lo hi : Nat) : Prop :=
      byteAt body i ≠ 0xFF ∧ ((byteAt body i).toNat < lo ∨ hi < (byteAt body i).toNat)
    (entryOf p body = none ↔
      2 < kind.toNat ∨
      (kind ≠ 2 ∧ relative = false ∧ (instantAt body 3).isReal = false) ∨
      (kind = 1 ∧ numberAt body (if relative then 7 else 10) 4 = 0) ∨
      (kind = 2 ∧ (outOf 3 1 12 ∨ outOf 4 1 31 ∨ outOf 5 1 7 ∨ outOf 6 0 23 ∨ outOf 7 0 59 ∨
        outOf 8 0 59)) ∨
      (kind.toNat ≤ 2 ∧ delivery.toNat % 16 = 0) ∨
      (kind.toNat < 2 ∧ options.getLsbD 2 = true) ∨
      options.getLsbD 4 = true)

/-- What QUERY PARAMETERS sends for an entry is a CREATE body again: it suits CREATE's length check
and describes the same entry, HELD and owned by the port that sends it, whatever the bits that are
not examined (R28, R41, R181 to R183). -/
def Obligations.ParametersAreACreateBody : Prop :=
  ∀ (e : Entry) (free : Byte) (p : Port),
    (match e.plan with
      | .once start _ => e.repeatLimit = 1 ∧
          (match start with
            | .absolute c => c ≤ Config.lastInstant
            | .relative o => o < 4294967296)
      | .periodic start period _ => 0 < period ∧ period < 4294967296 ∧
          (match start with
            | .absolute c => c ≤ Config.lastInstant
            | .relative o => o < 4294967296)
      | .calendar q => (∀ v, q.month = some v → 1 ≤ v ∧ v ≤ 12) ∧ (∀ v, q.day = some v → 1 ≤ v ∧ v ≤ 31) ∧
          (∀ v, q.weekday = some v → 1 ≤ v ∧ v ≤ 7) ∧ (∀ v, q.hour = some v → v ≤ 23) ∧
          (∀ v, q.minute = some v → v ≤ 59) ∧ (∀ v, q.second = some v → v ≤ 59)) →
    e.repeatLimit ≤ 65535 → e.tolerance ≤ 65535 → e.delivery ≠ PortSet.empty →
    let body := 0x40 :: parameterBytes e free
    createLengthOk body = true ∧ body.length ≤ Config.bodyRoom ∧
    entryOf p body = some { e with
      owner := p, state := .held, fireTotal := 0
      remaining := if e.repeatLimit = 0 then none else some e.repeatLimit }

/-- CREATE past its value checks (R28): refused NO_ROOM at the port's quota or with no slot FREE,
and otherwise the lowest-numbered FREE slot takes the entry under the generation it has. -/
def Obligations.CreateFillsLowestSlot : Prop :=
  ∀ (s : State) (p : Port) (h : Header) (args : List Byte),
    let body := 0x40 :: args
    s.takesOpen p h body → createLengthOk body = true → s.table.mode = .normal →
    (entryOf p body = none → exec (.create p h args) s = .next (s.answered p h body [0x08])) ∧
    (∀ e, entryOf p body = some e →
      e.owner = p ∧ e.state = .held ∧ e.fireTotal = 0 ∧
      (s.table.quota.get p ≤ s.ownedCount p ∨ (∀ i, s.entry i ≠ none) →
        exec (.create p h args) s = .next (s.answered p h body [0x06])) ∧
      (∀ i, s.ownedCount p < s.table.quota.get p → s.entry i = none →
        (∀ j, j < i → s.entry j ≠ none) →
        exec (.create p h args) s = .next
          (((s.serving p h body).place i e .pastEpoch).respond p
            [0x00, byteOf i.val, byteOf (s.slot i).gen.val])))

/-- ARM of a current entry by its owner (R29 to R31): BAD_STATE unless HELD or SPENT, NOT_VALID
while VALID is false, BAD_VALUE for an override of a MATCH entry, an override that is no real date
or a due beyond the last instant. Otherwise a ONCE or PERIODIC entry is placed ARMED with the due
its start resolves to, an override replacing the start, and a MATCH entry SEARCHING from the first
whole second after the instant; remaining is set to the repeat limit. -/
def Obligations.ArmResolvesStart : Prop :=
  ∀ (s : State) (p : Port) (h : Header) (n : Handle) (e : Entry) (more : List Byte),
    let args := byteOf n.slot.val :: byteOf n.gen.val :: more
    let body := 0x41 :: args
    s.takesOpen p h body → s.table.mode = .normal → s.current n = some e → e.owner = p →
    let answers (t : State) : Prop := exec (.arm p h args) s = .next t
    let u := s.serving p h body
    let next : Reference := if s.time.instant / 256 * 256 + 256 ≤ 807874559744 then
      .second ((s.time.instant / 256 + 1) * 256) else .pastEpoch
    let remaining := if e.repeatLimit = 0 then none else some e.repeatLimit
    let armable := e.state = .held ∨ ∃ c, e.state = .spent c
    let fits := more.length = 0 ∨ more.length = 4 ∨ more.length = 7
    (fits → ¬armable → answers (u.respond p [0x07])) ∧
    (fits → armable → s.time.valid = false → answers (u.respond p [0x0A])) ∧
    (armable → s.time.valid = true →
      (∀ pat, e.plan = .calendar pat →
        (more.length = 4 ∨ more.length = 7 → answers (u.respond p [0x08])) ∧
        (more = [] → answers ((u.place n.slot { e with state := .searching, remaining }
          next).respond p [0x00, 0x03]))) ∧
      (more.length = 7 → (instantAt body 3).isReal = false → answers (u.respond p [0x08])) ∧
      (∀ (start start' : Start) (plan' : Plan),
        ((∃ pol, e.plan = .once start pol ∧ plan' = .once start' pol) ∨
          ∃ q pol, e.plan = .periodic start q pol ∧ plan' = .periodic start' q pol) →
        (more = [] ∧ start' = start ∨
          more.length = 4 ∧ start' = .relative (numberAt body 3 4) ∨
          more.length = 7 ∧ (instantAt body 3).isReal = true ∧
            start' = .absolute (instantAt body 3).toCount) →
        let due := match start' with
          | .absolute c => c
          | .relative o => s.time.instant + o
        (Config.lastInstant < due → answers (u.respond p [0x08])) ∧
        (due ≤ Config.lastInstant → answers ((u.place n.slot
          { e with state := .armed due, plan := plan', remaining }
          next).respond p [0x00, 0x02]))))

/-- SUSPEND and RESUME of a current entry by its owner (R32 to R35): a ONCE or PERIODIC entry keeps
its due through them, and a MATCH entry drops it and is sought afresh. -/
def Obligations.SuspendAndResume : Prop :=
  ∀ (s : State) (p : Port) (h : Header) (n : Handle) (e : Entry),
    let a := byteOf n.slot.val
    let b := byteOf n.gen.val
    let next : Reference := if s.time.instant / 256 * 256 + 256 ≤ 807874559744 then
      .second ((s.time.instant / 256 + 1) * 256) else .pastEpoch
    s.table.mode = .normal → s.current n = some e → e.owner = p →
    (s.takesOpen p h [0x42, a, b] →
      let u := s.serving p h [0x42, a, b]
      let suspends (due : Option Nat) : Prop := exec (.suspend p h [a, b]) s = .next
        ((u.place n.slot { e with state := .suspended due } .pastEpoch).respond p [0x00])
      (∀ due, e.state = .armed due → (∀ pat, e.plan ≠ .calendar pat) → suspends (some due)) ∧
      (∀ due pat, e.state = .armed due → e.plan = .calendar pat → suspends none) ∧
      (e.state = .searching → suspends none) ∧
      (e.state = .held ∨ (∃ d, e.state = .suspended d) ∨ (∃ c, e.state = .spent c) →
        exec (.suspend p h [a, b]) s = .next (u.respond p [0x07]))) ∧
    (s.takesOpen p h [0x43, a, b] →
      let u := s.serving p h [0x43, a, b]
      (∀ d, e.state = .suspended d → s.time.valid = false →
        exec (.resume p h [a, b]) s = .next (u.respond p [0x0A])) ∧
      (∀ due, e.state = .suspended (some due) → s.time.valid = true →
        exec (.resume p h [a, b]) s = .next ((u.place n.slot { e with state := .armed due }
          next).respond p [0x00])) ∧
      (e.state = .suspended none → s.time.valid = true →
        exec (.resume p h [a, b]) s = .next ((u.place n.slot { e with state := .searching }
          next).respond p [0x00])) ∧
      ((∀ d, e.state ≠ .suspended d) →
        exec (.resume p h [a, b]) s = .next (u.respond p [0x07])))

/-- DELETE by the owner frees the entry with no notice (R36, R37). PURGE by the supervisor hands on
an ENDED notice with cause PURGED for the delivery set and the owner and then frees the entry,
reporting its former owner and state (R39, R153). RELEASE_CLAIM frees the port's entries with policy
RELEASE, and no other, in NORMAL mode; in RESCAN mode it is held (R38, R134). -/
def Obligations.FreeingRequests : Prop :=
  (∀ (s : State) (p : Port) (h : Header) (n : Handle) (e : Entry),
    let a := byteOf n.slot.val
    let b := byteOf n.gen.val
    s.table.mode = .normal → s.current n = some e →
    (e.owner = p → s.takesOpen p h [0x44, a, b] → exec (.delete p h [a, b]) s = .next
      (((s.serving p h [0x44, a, b]).freeSlot n.slot).respond p [0x00])) ∧
    (p = s.supervisor → s.takesOpen p h [0x53, a, b] → exec (.purge p h [a, b]) s = .next
      ((((s.serving p h [0x53, a, b]).handNotice .table (.ended n e.tag .purged)
        (.ports (PortSet.add e.delivery e.owner))).freeSlot n.slot).respond p
        [0x00, portByte e.owner, e.state.code]))) ∧
  (∀ (s : State) (p : Port), p ∈ s.transit.releases →
    let u := { s with transit := { s.transit with releases := s.transit.releases.erase p } }
    (s.table.mode ≠ .normal → exec (.releaseClaim p) s = .next
      { u with table := { u.table with heldReleases := s.table.heldReleases ++ [p] } }) ∧
    (s.table.mode = .normal → ∃ t, exec (.releaseClaim p) s = .next t ∧
      t = { u with table := { u.table with slots := t.table.slots }, dueList := t.dueList,
                   search := t.search } ∧
      ∀ i, (∀ e, s.entry i = some e → e.owner = p → e.orphan = .release →
          t.slot i = ⟨(s.slot i).gen + 1, none⟩ ∧ (∀ x ∈ t.dueList, x.slot ≠ i) ∧
            ∀ j ∈ t.search.jobs, j.slot ≠ i) ∧
        ((∀ e, s.entry i = some e → e.owner ≠ p ∨ e.orphan ≠ .release) →
          t.slot i = s.slot i ∧ (∀ due, ⟨due, i⟩ ∈ t.dueList ↔ ⟨due, i⟩ ∈ s.dueList) ∧
            ∀ j : Job, j.slot = i → (j ∈ t.search.jobs ↔ j ∈ s.search.jobs))))

/-- QUERY and LIST change nothing of the table and answer with the fields of R40 to R42 and R183.
The bits of the options character that no rule gives are free, and hold for every value of them
(notes/assumptions/1.md). -/
def Obligations.QueryAndList : Prop :=
  (∀ (s : State) (p : Port) (h : Header) (n : Handle) (e : Entry) (part : Byte),
    let a := byteOf n.slot.val
    let b := byteOf n.gen.val
    let body := [0x45, a, b, part]
    s.takesOpen p h body → s.table.mode = .normal → s.current n = some e →
    let shown : List Byte := match e.state with
      | .armed due | .suspended (some due) => 0x01 :: instantBytes due
      | .searching => match s.reference n.slot with
        | some (.second r) => 0x02 :: instantBytes r
        | _ => [0, 0, 0, 0, 0, 0, 0, 0]
      | _ => [0, 0, 0, 0, 0, 0, 0, 0]
    let cause : Byte := match e.state with
      | .spent c => c.code
      | _ => 0
    (part = 0 → exec (.query p h [a, b, part]) s = .next (s.answered p h body
      (0x00 :: ([a, b, e.state.code, e.plan.kindCode, portByte e.owner] ++ shown
        ++ natBytes 2 (e.remaining.getD 0) ++ natBytes 2 e.repeatLimit ++ natBytes 2 e.fireTotal
        ++ [cause, portSetByte e.delivery])))) ∧
    (part = 1 → ∃ free, exec (.query p h [a, b, part]) s = .next
      (({ s with freeIndex := s.freeIndex + 1 }).answered p h body
        (0x00 :: parameterBytes e free))) ∧
    (1 < part.toNat → exec (.query p h [a, b, part]) s = .next (s.answered p h body [0x08]))) ∧
  (∀ (s : State) (p : Port) (h : Header) (a g : Byte),
    let body := [0x46, a, g]
    s.takesOpen p h body → s.table.mode = .normal →
    (3 < a.toNat ∨ 3 < g.toNat →
      exec (.list p h [a, g]) s = .next (s.answered p h body [0x08])) ∧
    (∀ q, a = portByte q → g.toNat ≤ 3 → ∃ owned gens : List Byte,
      owned.length = 8 ∧ gens.length = 8 ∧
      (∀ i : SlotNo, (byteAt owned (i.val / 8)).getLsbD (i.val % 8) = (s.slot i).ownedBy q) ∧
      (∀ k, k < 8 → ∀ i j : SlotNo, i.val = 16 * g.toNat + 2 * k → j.val = i.val + 1 →
        (byteAt gens k).toNat = 16 * (s.slot i).gen.val + (s.slot j).gen.val) ∧
      exec (.list p h [a, g]) s = .next (s.answered p h body
        (0x00 :: (owned ++ gens ++ [byteOf (s.table.quota.get q), byteOf (s.ownedCount q)])))))

/-- SET_QUOTA: the checks in the order of R152, and what one that passes sets and answers. -/
def Obligations.SetQuotaDecided : Prop :=
  ∀ (s : State) (p : Port) (h : Header) (a n : Byte),
    let body := [0x51, a, n]
    s.takesOpen p h body →
    let answers (t : State) : Prop := exec (.setQuota p h [a, n]) s = .next t
    let checked : Prop := s.table.mode = .normal ∧ p = s.supervisor
    (s.table.mode ≠ .normal → answers (s.answered p h body [0x01])) ∧
    (s.table.mode = .normal → p ≠ s.supervisor → answers (s.answered p h body [0x03])) ∧
    (checked → 3 < a.toNat ∨ 64 < n.toNat → answers (s.answered p h body [0x08])) ∧
    (∀ q, checked → a = portByte q → n.toNat ≤ 64 →
      let quota := s.table.quota.set q n.toNat
      let sum := quota.p0 + quota.p1 + quota.p2 + quota.p3
      (64 < sum → answers (s.answered p h body [0x06])) ∧
      (sum ≤ 64 → n.toNat < s.ownedCount q → answers (s.answered p h body [0x07])) ∧
      (sum ≤ 64 → s.ownedCount q ≤ n.toNat → answers
        (({ s with table := { s.table with quota } }).answered p h body
          [0x00, n, byteOf (s.ownedCount q), byteOf sum])))

/-- Writing an entry moves it between the lists with its state (R24, R36, R47, R68): its slot keeps
its generation and takes the record; an ARMED entry stands once in the Due List with its due, and in
NORMAL mode a look follows; a SEARCHING entry's job is the last of the Search Queue; every other
member keeps its place. Freeing an entry makes its slot FREE and advances its generation. The engine
takes up the head of the queue when it was IDLE and a job joins, or when the job it ran leaves, and
is IDLE over an empty queue; otherwise it goes on, or stays PAUSED (R69). -/
def Obligations.PlacementMovesLists : Prop :=
  ∀ (s : State) (i : SlotNo) (e : Entry) (ref : Reference),
    let t := s.place i e ref
    let f := s.freeSlot i
    let others : List DueItem := s.dueList.filter (·.slot != i)
    let jobs : List Job := s.search.jobs.filter (·.slot != i)
    t.slot i = ⟨(s.slot i).gen, some e⟩ ∧ f.slot i = ⟨(s.slot i).gen + 1, none⟩ ∧
    (∀ j, j ≠ i → t.slot j = s.slot j ∧ f.slot j = s.slot j) ∧
    t = { s with table := { s.table with slots := t.table.slots }, dueList := t.dueList,
                 search := t.search, transit := { s.transit with looks := t.transit.looks } } ∧
    f = { s with table := { s.table with slots := f.table.slots }, dueList := others,
                 search := f.search } ∧
    f.search.jobs = jobs ∧
    (∀ ph, s.search.engine = .running i ph → t.search.engine = takeUp t.search.jobs) ∧
    (s.search.engine = .idle → t.search.engine =
      if e.state = .searching then takeUp t.search.jobs else .idle) ∧
    (∀ k ph, s.search.engine = .running k ph → k ≠ i → t.search.engine = .running k ph) ∧
    (s.search.engine = .paused → t.search.engine = .paused) ∧
    takeUp [] = .idle ∧ (∀ j rest, takeUp (j :: rest) = .running j.slot .searching) ∧
    (∀ ph, s.search.engine = .running i ph → f.search.engine = takeUp jobs) ∧
    ((∀ ph, s.search.engine ≠ .running i ph) → f.search.engine = s.search.engine) ∧
    (∀ due, e.state = .armed due →
      t.dueList.filter (·.slot != i) = others ∧
      t.dueList.filter (·.slot == i) = [⟨due, i⟩] ∧
      (s.dueList.Pairwise (fun a b => a.before b = true) →
        t.dueList.Pairwise fun a b => a.before b = true) ∧
      t.transit.looks = s.transit.looks ++ (if s.table.mode = .normal then [.tableEvent] else [])) ∧
    ((∀ due, e.state ≠ .armed due) → t.dueList = others ∧ t.transit.looks = s.transit.looks) ∧
    (e.state = .searching → t.search.jobs = jobs ++ [⟨i, (s.slot i).gen, ref⟩]) ∧
    (e.state ≠ .searching → t.search.jobs = jobs)

/-! ### Looks and firings -/

/-- LOOK takes the oldest event of its source. In NORMAL mode it hands on one firing claim for each
ARMED entry whose due the instant has reached, in ascending (due, slot) order, and in RESCAN mode
none (R49, R50). The instant is the presented one, or the Timebase's at a join or the end of a
rescan. That the command names its source is the model's choice (notes/assumptions/19.md). -/
def Obligations.LookFiresReachedEntries : Prop :=
  (∀ (s : State) (instant : Nat) (passed : Option Nat), DueListLaw s →
    let claims := lookClaims s instant passed
    (∀ (n : Handle) (due : Nat), (∃ c ∈ claims, c.handle = n ∧ c.due = due) ↔
      s.armedAt n.slot due ∧ due ≤ instant ∧ n.gen = (s.slot n.slot).gen) ∧
    claims.Pairwise (fun c d => c.due < d.due ∨ c.due = d.due ∧ c.handle.slot < d.handle.slot) ∧
    ∀ c ∈ claims, ∃ e, s.current c.handle = some e ∧
      c = firingClaimFor c.handle e instant passed c.due) ∧
  (∀ (s : State) (stamp instant : Nat) (passed : Option Nat),
    s.transit.looks.find? (·.isFrom .timebase) = some (.presented stamp instant passed) →
    let looks := s.transit.looks.erase (.presented stamp instant passed)
    exec (.look .timebase) s = .next { s with transit := { s.transit with
      looks, firings := s.transit.firings ++ (if s.table.mode = .normal then
        (lookClaims s instant passed).map fun c => ⟨stamp, c⟩ else []) } }) ∧
  (∀ s : State, LookMsg.tableEvent ∈ s.transit.looks →
    exec (.look .table) s = .next { s with transit := { s.transit with
      looks := s.transit.looks.erase .tableEvent
      firings := s.transit.firings ++ (if s.table.mode = .normal then
        (lookClaims s s.time.instant none).map fun c => ⟨s.transit.stamp, c⟩ else []) } })

/-- The computation of a firing at a look that has reached its due (R53 to R58): the lateness, 0 at
a due that a gained advance passed over; the verdict against the tolerance; the occurrences k of a
PERIODIC entry, which are those at or before the instant; the next state, final or not. -/
def Obligations.FiringComputed : Prop :=
  ∀ (n : Handle) (e : Entry) (instant due : Nat) (passed : Option Nat), due ≤ instant →
    let c := firingClaimFor n e instant passed due
    let late := if passed = some due then 0 else min 65535 (instant - due)
    c.handle = n ∧ c.due = due ∧ c.lateness = late ∧
    (c.missed = true ↔ e.tolerance ≠ 65535 ∧ e.tolerance < late) ∧
    (c.isFinal = true ↔ ∃ cause, c.next = .spent cause) ∧
    (∀ start pol, e.plan = .once start pol → c.occurrences = 1 ∧ c.next = .spent .countDone) ∧
    (∀ start p pol, e.plan = .periodic start p pol → 0 < p →
      let k := c.occurrences
      (∀ j, due + j * p ≤ instant ↔ j < k) ∧ 1 ≤ k ∧
      (∀ r, e.remaining = some r → r ≤ k → c.next = .spent .countDone) ∧
      ((∀ r, e.remaining = some r → k < r) →
        (Config.lastInstant < due + k * p → c.next = .spent .epoch) ∧
        (due + k * p ≤ Config.lastInstant → c.next = .armed (due + k * p) ∧
          instant < due + k * p))) ∧
    (∀ pat, e.plan = .calendar pat → c.occurrences = 1 ∧
      (∀ r, e.remaining = some r → r ≤ 1 → c.next = .spent .countDone) ∧
      ((∀ r, e.remaining = some r → 1 < r) →
        (due + 256 ≤ Config.lastSecond → c.next = .search (.second (due + 256))) ∧
        (Config.lastSecond < due + 256 → c.next = .search .pastEpoch)))

/-- FIRING_CLAIM applies the oldest claim when its handle is current and its entry ARMED with the
claim's due: the entry takes its next state, remaining falls and the fire total rises, the notice is
handed on, then a wake request for a wake flag, and then ENDED for a PERIODIC entry the epoch ends;
otherwise the claim is discarded and changes nothing (R51, R56, R57, R59, R61). The next state is the
claim's, but that the firing which brings remaining to 0 ends the entry with COUNT_DONE (R22). That a
claim for COUNT_DONE lets the entry go on where some remain is the model's choice
(notes/assumptions/14.md). WAKE_REQUEST sets
the WAKE latch while the standby flag is set and is ignored while it is clear; a latch already set
stays set (R61, R179). -/
def Obligations.FiringClaimApplied : Prop :=
  (∀ (s : State) (m : FiringMsg) (rest : List FiringMsg), s.transit.firings = m :: rest →
     let c := m.claim
     let u := { s with transit := { s.transit with firings := rest } }
     (∀ e, s.current c.handle = some e → e.state = .armed c.due →
       let usedUp : Bool := match e.remaining with
         | some r => decide (r ≤ c.occurrences)
         | none => false
       let onward : FiredState := match e.plan with
         | .once _ _ => .spent .countDone
         | .periodic _ p _ =>
           if 807874559999 < c.due + c.occurrences * p then .spent .epoch
           else .armed (c.due + c.occurrences * p)
         | .calendar _ =>
           .search (if c.due + 256 ≤ 807874559744 then .second (c.due + 256) else .pastEpoch)
       let next : FiredState :=
         if usedUp then .spent .countDone
         else if c.next = .spent .countDone then onward else c.next
       let isFinal : Bool := if next = c.next then c.isFinal else match next with
         | .spent _ => true
         | _ => false
       let state : EntryState := match next with
         | .armed due => .armed due
         | .search _ => .searching
         | .spent cause => .spent cause
       let ref : Reference := match next with
         | .search r => r
         | _ => .pastEpoch
       let v := (u.place c.handle.slot { e with
           state, remaining := e.remaining.map (· - c.occurrences)
           fireTotal := min 65535 (e.fireTotal + c.occurrences) } ref).handNotice .table
         (.firing c.missed c.handle e.tag c.due (min 255 c.occurrences) c.lateness isFinal)
         (.ports e.delivery)
       let w := if e.wake then
           { v with transit := { v.transit with wakes := v.transit.wakes + 1 } } else v
       exec .firingClaim s = .next (if next = .spent .epoch then w.handNotice .table
         (.ended c.handle e.tag .epoch) (.ports (PortSet.add e.delivery e.owner)) else w)) ∧
     ((∀ e, s.current c.handle = some e → e.state ≠ .armed c.due) →
       exec .firingClaim s = .next u)) ∧
  (∀ s : State, 0 < s.transit.wakes →
     let u := { s with transit := { s.transit with wakes := s.transit.wakes - 1 } }
     (s.standby.flag = true → exec .wakeRequest s = .next
       { u with standby := { s.standby with wake := true } }) ∧
     (s.standby.flag = false → exec .wakeRequest s = .next u))

/-! ### The match search -/

/-- The result of a search (R65, R67): the earliest whole second at or after the reference, within
1,461 days of it and within the epoch, at which the pattern matches, and NO_MATCH when there is
none. -/
def Obligations.SearchFindsEarliestMatch : Prop :=
  ∀ (p : Pattern) (f : Nat), f % 256 = 0 → f ≤ Config.lastSecond →
    let agrees (field : Option Nat) (value : Nat) : Prop := field = none ∨ field = some value
    let hit (x : Nat) : Prop :=
      x % 256 = 0 ∧ f ≤ x ∧ x ≤ f + 32314982400 ∧ x ≤ Config.lastSecond ∧
      let c := calendarView x
      agrees p.month c.month ∧ agrees p.day c.day ∧ agrees p.weekday c.weekday ∧
      agrees p.hour c.hour ∧ agrees p.minute c.minute ∧ agrees p.second c.second
    (∀ x, searchResult p (.second f) = some x ↔ hit x ∧ ∀ y, hit y → x ≤ y) ∧
    searchResult p .pastEpoch = none

/-- SEARCH_RUN_COMPLETE hands on the result of the head job (R69 to R71). RESULT_CLAIM applies it
when its handle is current, the entry is SEARCHING and its job holds the claim's reference: ARMED
with the found second, or SPENT with NO_MATCH and its ENDED notice; otherwise it is discarded (R71,
R73). -/
def Obligations.SearchRunAndResult : Prop :=
  (∀ (s : State) (j : Job) (rest : List Job) (e : Entry) (p : Pattern),
    s.search.engine = .running j.slot .searching → s.search.jobs = j :: rest →
    s.entry j.slot = some e → e.plan = .calendar p →
    exec .searchRunComplete s = .next { s with
      search := { s.search with engine := .running j.slot .delivered }
      transit := { s.transit with results := s.transit.results
        ++ [⟨j.slot, j.gen, j.ref, searchResult p j.ref⟩] } }) ∧
  (∀ (s : State) (c : ResultClaim) (rest : List ResultClaim), s.transit.results = c :: rest →
    let u := { s with transit := { s.transit with results := rest } }
    (∀ e, s.current ⟨c.slot, c.gen⟩ = some e → e.state = .searching →
      s.reference c.slot = some c.ref →
      (∀ second, c.found = some second → exec .resultClaim s = .next
        (u.place c.slot { e with state := .armed second } .pastEpoch)) ∧
      (c.found = none → exec .resultClaim s = .next
        ((u.place c.slot { e with state := .spent .noMatch } .pastEpoch).handNotice .table
          (.ended ⟨c.slot, c.gen⟩ e.tag .noMatch)
          (.ports (PortSet.add e.delivery e.owner))))) ∧
    ((∀ e, s.current ⟨c.slot, c.gen⟩ = some e → e.state = .searching →
      s.reference c.slot ≠ some c.ref) → exec .resultClaim s = .next u))

/-! ### The rescan and the epoch end -/

/-- The Schedule Table takes the oldest Timebase claim, at once unless an advance gave rise to it; such
a claim waits until the presentations and the firing claims handed on before it have been taken (R52),
and STEP_CLAIM does nothing before that. The stamps that number what is handed on are the model's
(notes/assumptions/4.md).
STEP_CLAIM enters RESCAN with the step amount and visit position 0 (R127). RESCAN_VISIT treats
the slot at the position and moves on: a RELATIVE due moves by the step amount, clamped to the
epoch, an ABSOLUTE due stays, a MATCH entry goes back to search from N, the first whole second after
the instant set by the step, and every other slot is left as it is (R128 to R132). A SEARCHING
entry's job keeps its place and takes the reference N, and a run of it begins anew (R75). RESCAN_END
finds the presentations made during the rescan, which hand nothing on (R128), applies the held
release claims, returns to NORMAL and has the Due Monitor look (R135). That the claim carries the
instant, that position 64 stands for all slots visited, and that the end takes the presentations in
its own step, is the model's reading (notes/assumptions/13.md). -/
def Obligations.RescanTreatsEverySlot : Prop :=
  (∀ s : State,
    (s.transit.timeClaims = [] → s.timeClaimReady = none) ∧
    (∀ m rest, s.transit.timeClaims = m :: rest →
      let waits : Prop := m.fromAdvance = true ∧
        ((∃ stamp instant passed, LookMsg.presented stamp instant passed ∈ s.transit.looks ∧
          stamp < m.stamp) ∨ ∃ x ∈ s.transit.firings, x.stamp < m.stamp)
      (waits → s.timeClaimReady = none) ∧ (¬waits → s.timeClaimReady = some m)) ∧
    ((∀ m delta instant, s.timeClaimReady = some m → m.claim ≠ .step delta instant) →
      exec .stepClaim s = .next s)) ∧
  (∀ (s : State) (fromAdvance : Bool) (claim : TimeClaim) (instant : Nat) (passed : Option Nat),
    s.handTimeClaim fromAdvance claim = { s with transit := { s.transit with
      timeClaims := s.transit.timeClaims ++ [⟨s.transit.stamp, fromAdvance, claim⟩]
      stamp := s.transit.stamp + 1 } } ∧
    s.present instant passed = { s with transit := { s.transit with
      looks := s.transit.looks ++ [.presented s.transit.stamp instant passed]
      stamp := s.transit.stamp + 1 } }) ∧
  (∀ (s : State) (m : TimeMsg) (delta : Int) (instant : Nat), s.timeClaimReady = some m →
    m.claim = .step delta instant → s.table.mode = .normal → exec .stepClaim s = .next { s with
      table := { s.table with
        mode := .rescan { delta, instant, position := 0 }, heldReleases := [] }
      transit := { s.transit with
        timeClaims := s.transit.timeClaims.drop 1, tableAfter := m.stamp } }) ∧
  (∀ (s : State) (r : Rescan) (i : SlotNo), s.table.mode = .rescan r → i.val = r.position →
    let moved (t : State) : State :=
      { t with table := { t.table with mode := .rescan { r with position := r.position + 1 } } }
    let visits (t : State) : Prop := exec .rescanVisit s = .next (moved t)
    let shifted (due : Nat) : Nat :=
      (max 0 (min ((due : Int) + r.delta) (Config.lastInstant : Int))).toNat
    let n : Reference := if r.instant / 256 * 256 + 256 ≤ 807874559744 then
      .second ((r.instant / 256 + 1) * 256) else .pastEpoch
    let anew : Search :=
      { jobs := s.search.jobs.map fun j => if j.slot = i then { j with ref := n } else j
        engine := match s.search.engine with
          | .running k ph => .running k (if k = i then .searching else ph)
          | other => other }
    (s.entry i = none → visits s) ∧
    ∀ e, s.entry i = some e →
      ((∃ pat, e.plan = .calendar pat) →
        (∀ due, e.state = .armed due → visits (s.place i { e with state := .searching } n)) ∧
        (e.state = .searching → visits { s with search := anew }) ∧
        ((∀ due, e.state ≠ .armed due) → e.state ≠ .searching → visits s)) ∧
      (∀ pol, ((∃ start, e.plan = .once start pol) ∨ ∃ start p, e.plan = .periodic start p pol) →
        (∀ due, e.state = .armed due → visits (s.place i { e with
          state := .armed (if pol = .relative then shifted due else due) } .pastEpoch)) ∧
        (∀ due, e.state = .suspended (some due) → visits (s.place i { e with
          state := .suspended (some (if pol = .relative then shifted due else due)) } .pastEpoch)) ∧
        ((∀ due, e.state ≠ .armed due ∧ e.state ≠ .suspended (some due)) → visits s))) ∧
  (∀ (s : State) (r : Rescan), s.table.mode = .rescan r → r.position = 64 →
    let found : State := { s with transit := { s.transit with
      looks := s.transit.looks.filter (· == .tableEvent) } }
    let u := s.table.heldReleases.foldl State.releaseEntries found
    exec .rescanEnd s = .next ({ u with
      table := { u.table with mode := .normal, heldReleases := [] } }.handLook .tableEvent))

/-- EPOCH_END_CLAIM makes every ARMED, SEARCHING or SUSPENDED entry SPENT with end cause EPOCH,
hands on its ENDED notice in slot order, and leaves the Due List and the Search Queue empty; the
other entries are left as they are (R43, R63, R77). The engine is IDLE after it, or stays PAUSED (R77).
Before the claim may be taken (R52) the command does nothing. -/
def Obligations.EpochEndEndsLiveEntries : Prop :=
  (∀ s : State, (∀ m, s.timeClaimReady = some m → m.claim ≠ .epochEnd) →
    exec .epochEndClaim s = .next s) ∧
  ∀ (s : State) (m : TimeMsg), s.timeClaimReady = some m → m.claim = .epochEnd →
    DueListLaw s → SearchQueueLaw s → ∃ t, exec .epochEndClaim s = .next t ∧
      (EngineLaw s → t.search.engine = if s.search.engine = .paused then .paused else .idle) ∧
      t = { s with table := { s.table with slots := t.table.slots }, dueList := []
                   search := { jobs := [], engine := t.search.engine }, transit := t.transit } ∧
      (∀ i, (∀ e, s.entry i = some e → e.state.live = true →
          t.slot i = ⟨(s.slot i).gen, some { e with state := .spent .epoch }⟩) ∧
        ((∀ e, s.entry i = some e → e.state.live = false) → t.slot i = s.slot i)) ∧
      t.transit = { s.transit with
        notices := t.transit.notices, stamp := t.transit.stamp
        timeClaims := s.transit.timeClaims.drop 1, tableAfter := m.stamp } ∧
      t.transit.notices.map (fun x => (x.src, x.content, x.address)) =
        s.transit.notices.map (fun x => (x.src, x.content, x.address)) ++
          (List.finRange 64).filterMap fun i => match s.entry i with
            | some e => if e.state.live then some (NoticeSource.table,
                Content.ended ⟨i, (s.slot i).gen⟩ e.tag .epoch,
                Address.ports (PortSet.add e.delivery e.owner)) else none
            | none => none

/-! ### Notice Queues and delivery -/

/-- The Notice Unit takes a block's oldest notice once it has taken every notice that the block
upstream, whose claims the block takes, handed on before the last claim so taken: so a LEASE notice
stands ahead of its COMMIT_DROPPED, EPOCH ahead of the ENDED notices and STEPPED ahead of the firings
that follow it (R81, R101, R124); before that NOTICE_TAKEN changes nothing. The stamps that number the
notices and claims are the model's (notes/assumptions/4.md).
NOTICE_TAKEN places a block's next notice in every queue it is addressed to and in no other
(R80, R81): a FIRE or MISSED notice coalesces into the unsent firing record of its handle, keeping
that record's due, lateness and loss-before (R83); another notice joins at the tail of a queue with
fewer than 16 records, with loss-before when the LOSS flag was set, which then clears; and in a full
queue it is lost and the LOSS flag is set (R84). A TIME notice to open sessions is addressed as it
is taken. That this holds for EPOCH too is the model's reading (notes/assumptions/11.md). -/
def Obligations.NoticePlaced : Prop :=
  (∀ (s : State) (src : NoticeSource),
    let upstream : Option NoticeSource := match src with
      | .table => some .timebase
      | .timebase => some .lease
      | .lease => none
    ((∀ m ∈ s.transit.notices, m.src ≠ src) → s.noticeReady src = none) ∧
    (∀ front m back, s.transit.notices = front ++ m :: back → m.src = src →
      (∀ x ∈ front, x.src ≠ src) →
      let waits : Prop := ∃ x ∈ s.transit.notices, some x.src = upstream ∧ x.stamp < m.after
      (waits → s.noticeReady src = none) ∧ (¬waits → s.noticeReady src = some m)) ∧
    (s.noticeReady src = none → exec (.noticeTaken src) s = .next s)) ∧
  (∀ (s : State) (src : NoticeSource) (c : Content) (a : Address),
    let after := match src with
      | .table => s.transit.tableAfter
      | .timebase => s.transit.timebaseAfter
      | .lease => 0
    s.handNotice src c a = { s with transit := { s.transit with
      notices := s.transit.notices ++ [⟨src, s.transit.stamp, after, c, a⟩]
      stamp := s.transit.stamp + 1 } }) ∧
  (∀ (s : State) (src : NoticeSource) (m : NoticeMsg), s.noticeReady src = some m →
    ∃ t, exec (.noticeTaken src) s = .next t ∧
      t = { s with queues := t.queues, transit := { s.transit with
        notices := s.transit.notices.erase m } } ∧
      ∀ p, let addressed : Bool := match m.address with
          | .ports set => set.get p
          | .openSessions => (s.port p).session.isOpen
        t.queue p = if addressed then (s.queue p).placeNotice m.content else s.queue p) ∧
  (∀ (q : NoticeQueue) (missed isFinal : Bool) (n : Handle) (tag : BitVec 32)
      (due count late : Nat),
    let c : Content := .firing missed n tag due count late isFinal
    (∀ (front back : List Record) (m₀ f₀ loss : Bool) (tag₀ : BitVec 32) (due₀ c₀ late₀ : Nat),
      q.unsent = front ++ ⟨.firing m₀ n tag₀ due₀ c₀ late₀ f₀, loss⟩ :: back →
      (∀ r ∈ front, r.firingHandle ≠ some n) →
      q.placeNotice c = { q with unsent := front ++
        ⟨.firing (m₀ || missed) n tag₀ due₀ (min 255 (c₀ + count)) late₀ isFinal, loss⟩ :: back }) ∧
    ((∀ r ∈ q.unsent, r.firingHandle ≠ some n) →
      (q.size < 16 → q.placeNotice c =
        { q with unsent := q.unsent ++ [⟨c, q.loss⟩], loss := false }) ∧
      (16 ≤ q.size → q.placeNotice c = { q with loss := true }))) ∧
  (∀ (q : NoticeQueue) (c : Content), (∀ a b d e f g h, c ≠ .firing a b d e f g h) →
    (q.size < 16 → q.placeNotice c =
      { q with unsent := q.unsent ++ [⟨c, q.loss⟩], loss := false }) ∧
    (16 ≤ q.size → q.placeNotice c = { q with loss := true }))

/-- The return to unsent (R85): no record stays in flight; no handle keeps two firing records, each
handle that had one keeps one, whose count is the saturated sum of those merged into it, whose due
and lateness are the earliest record's, which is MISSED when any of them is, and whose final flag is
that of the latest (R83); the other records stay, in their order; and a report of a loss is neither
dropped nor invented. -/
def Obligations.ReturnToUnsentMerges : Prop :=
  ∀ q : NoticeQueue,
    let before := q.inFlight.map (·.record) ++ q.unsent
    let after := q.returnToUnsent
    let counts (n : Handle) (l : List Record) : List Nat := l.filterMap fun r => match r.content with
      | .firing _ n' _ _ c _ _ => if n' = n then some c else none
      | _ => none
    let firsts (n : Handle) (l : List Record) : List (BitVec 32 × Nat × Nat) :=
      l.filterMap fun r => match r.content with
        | .firing _ n' tag due _ late _ => if n' = n then some (tag, due, late) else none
        | _ => none
    let kinds (n : Handle) (l : List Record) : List (Bool × Bool) := l.filterMap fun r =>
      match r.content with
        | .firing missed n' _ _ _ _ isFinal => if n' = n then some (missed, isFinal) else none
        | _ => none
    after.inFlight = [] ∧
    (∀ n l x, kinds n before = l ++ [x] →
      kinds n after.unsent = [((l ++ [x]).any (·.1), x.2)]) ∧
    (after.unsent.filterMap (·.firingHandle)).Nodup ∧
    (∀ r ∈ before, ∀ n, r.firingHandle = some n → n ∈ after.unsent.filterMap (·.firingHandle)) ∧
    (∀ n, firsts n after.unsent = (firsts n before).take 1) ∧
    (∀ n, (∀ c ∈ counts n before, c ≤ 255) → counts n before ≠ [] →
      counts n after.unsent = [min 255 (counts n before).sum]) ∧
    (after.unsent.filter fun r => r.firingHandle.isNone).map (·.content) =
      (before.filter fun r => r.firingHandle.isNone).map (·.content) ∧
    (after.loss || after.unsent.any (·.lossBefore)) = (q.loss || before.any (·.lossBefore)) ∧
    after.size ≤ q.size

/-- The body of a notice by its kind (R184): the kind, the flags character with loss-before, final
and slew-cancelled in bits 0 to 2, and the fields of the kind, numbers most significant character
first and the step amount in two's complement (R181). -/
def Obligations.NoticeBodies : Prop :=
  ∀ (loss missed isFinal cancelled : Bool) (n : Handle) (tag : BitVec 32) (due count late instant : Nat)
    (delta : Int),
    let bit (b : Bool) (v : Byte) : Byte := if b then v else 0
    let handle : List Byte := [BitVec.ofNat 8 n.slot.val, BitVec.ofNat 8 n.gen.val]
    let tags : List Byte :=
      [tag.extractLsb' 24 8, tag.extractLsb' 16 8, tag.extractLsb' 8 8, tag.extractLsb' 0 8]
    let calendar (i : Nat) : List Byte :=
      let c := calendarView i
      [c.year, c.month, c.day, c.hour, c.minute, c.second, c.fraction].map (BitVec.ofNat 8)
    let amount : BitVec 48 := BitVec.ofInt 48 delta
    let body (c : Content) : List Byte := (⟨c, loss⟩ : Record).bytes
    body (.firing missed n tag due count late isFinal) =
      ([if missed then 2 else 1, bit loss 1 ||| bit isFinal 2] : List Byte) ++ handle ++ tags ++ calendar due
        ++ [BitVec.ofNat 8 count, BitVec.ofNat 8 (late / 256), BitVec.ofNat 8 late] ∧
    (∀ cause : EndedCause, body (.ended n tag cause) =
      ([3, bit loss 1] : List Byte) ++ handle ++ tags ++ ([match cause with
        | .noMatch => 2
        | .epoch => 3
        | .purged => 4] : List Byte)) ∧
    body (.stepped instant delta cancelled) =
      [4, bit loss 1 ||| bit cancelled 4, 1] ++ calendar instant
        ++ [amount.extractLsb' 40 8, amount.extractLsb' 32 8, amount.extractLsb' 24 8,
            amount.extractLsb' 16 8, amount.extractLsb' 8 8, amount.extractLsb' 0 8] ∧
    body .slewDone = [4, bit loss 1, 2] ∧ body .commitDropped = [4, bit loss 1, 3] ∧
    body .epoch = [4, bit loss 1, 4] ∧
    (∀ cause : LeaseCause, body (.lease cause) = [5, bit loss 1, match cause with
      | .expired => 1
      | .broken => 2
      | .reset => 3])

/-- ATNn is asserted exactly when the port domain is not held in reset, the port has no session or
one with attention mode ON, and its queue holds a record or its delivery is STALLED (R98). Under the
law of the hold it is therefore released while the hold condition is true; and with the hold
condition false, a port with no session has it asserted while its queue holds records. -/
def Obligations.AttentionOutput : Prop :=
  (∀ (s : State) (p : Port), s.atn p = true ↔
    s.standby.running = true ∧
    ((s.port p).session.isOpen = false ∨ (s.port p).session.attention = true) ∧
    ((s.queue p).inFlight ≠ [] ∨ (s.queue p).unsent ≠ [] ∨ (s.port p).delivery.state = .stalled)) ∧
  (∀ (s : State) (p : Port), HoldLaw s →
    (holdCond s.standby.pf s.standby.rst s.standby.vddGood = true → s.atn p = false) ∧
    (holdCond s.standby.pf s.standby.rst s.standby.vddGood = false →
      (s.port p).session.isOpen = false → 0 < (s.queue p).size → s.atn p = true))

/-- ACK retires the record of its sequence and every one ahead of it, sets the retry count to 0 and
restarts or stops the ack timer; without a session, or with no record of that sequence in flight, it
is ignored (R89). It is taken with or without a request in service and reloads the keepalive count
(R163). That a frame the receiver was gathering and that is no part of this one was aborted by it is
the model's choice (notes/assumptions/7.md). -/
def Obligations.AckRetires : Prop :=
  ∀ (s : State) (p : Port) (h : Header) (body : List Byte), s.hears p body →
    let heard : PortCtl := (s.port p).frameTaken (frameBytes .ack h body)
    let c : PortCtl := { heard with session := heard.session.reloaded }
    (∀ (front back : List Sent) (x : Sent), (s.port p).session.isOpen = true →
      (s.queue p).inFlight = front ++ x :: back → x.seq = h.seq → (∀ y ∈ front, y.seq ≠ h.seq) →
      exec (.ack p h body) s = .next { s with
        queues := s.queues.set p { s.queue p with inFlight := back }
        ports := s.ports.set p { c with delivery := { c.delivery with
          retries := 0
          timer := if back = [] then none
            else if c.delivery.state = .ready then some 0 else c.delivery.timer } } }) ∧
    ((s.port p).session.isOpen = false ∨ (∀ y ∈ (s.queue p).inFlight, y.seq ≠ h.seq) →
      exec (.ack p h body) s = .next { s with ports := s.ports.set p c })

/-- TEN_MS_TICK advances every running ack timer, up to the session's ack timeout (R90).
ACK_TIMEOUT, at a timer that has reached it in READY, begins a retransmission round while retries
remain, and otherwise stalls the port (R91, R93); at any other time it changes nothing. That the
ticks use up due marks, and that the expiry is a command of its own, is the model's choice
(notes/assumptions/5.md). -/
def Obligations.AckTimerRuns : Prop :=
  (∀ s : State,
    let u := { s with transit := { s.transit with marks := { s.transit.marks with
      ticks := s.transit.marks.ticks - 1 } } }
    (s.standby.running = false → exec .tenMsTick s = .next u) ∧
    (s.standby.running = true → ∃ t, exec .tenMsTick s = .next t ∧ t = { u with ports := t.ports } ∧
      ∀ p, t.port p = { s.port p with delivery := { (s.port p).delivery with
        timer := (s.port p).delivery.timer.map fun n =>
          min (n + 1) (s.port p).session.ackTimeout } })) ∧
  (∀ (s : State) (p : Port),
    let c := s.port p
    let expired := s.standby.running = true ∧ c.delivery.state = .ready ∧
      ∃ n, c.delivery.timer = some n ∧ c.session.ackTimeout ≤ n
    let marks (b : Bool) : NoticeQueue :=
      { s.queue p with inFlight := (s.queue p).inFlight.map fun x => { x with marked := b } }
    (expired → c.delivery.retries < c.session.retryLimit →
      exec (.ackTimeout p) s = .next { s with
        queues := s.queues.set p (marks true)
        ports := s.ports.set p { c with delivery := { c.delivery with
          retries := c.delivery.retries + 1, timer := some 0 } } }) ∧
    (expired → c.session.retryLimit ≤ c.delivery.retries →
      exec (.ackTimeout p) s = .next { s with
        queues := s.queues.set p (marks false)
        ports := s.ports.set p { c with delivery := { c.delivery with
          state := .stalled, timer := none } } }) ∧
    (¬expired → exec (.ackTimeout p) s = .next s))

/-- The frame starts of a free transmitter in a running port domain with RDYn asserted (R87, R88,
R166, R168, R169): a ready response first, whose start writes the cache unless it is BUSY or a
replay; then, in READY, the oldest record with a re-send mark, with the retry flag set; then the
oldest unsent record, while fewer are in flight than the window, which takes the next sequence and
starts the ack timer when none was in flight. A frame that is not the one to start does not start: a
re-send or a notice while a response is ready, a notice while a marked record remains, and either
outside READY (R86, R93). With RDYn deasserted none starts, and while a frame is being sent RDYn is
not sampled. END_OF_SERVICE, when the last character of a response has been sent, frees the
transmitter and ends the request's service, unless a teardown had ended it already (R148, R164,
R169). NOTICE_FRAME_END frees the transmitter after a notice frame (R169). That a command carries
the level of RDYn it samples is the model's choice (notes/assumptions/8.md). -/
def Obligations.FramesSentInOrder : Prop :=
  (∀ (s : State) (p : Port), s.standby.running = true →
     let c := s.port p
     let q := s.queue p
     let d := c.delivery
     let sampled (rdy : Bool) : State := { s with ports := s.ports.set p { c with rdy } }
     let noResponse := c.service = none ∨ ∃ h b, c.service = some ⟨h, b, none⟩
     (∀ h b r, c.tx = .free → c.service = some ⟨h, b, some r⟩ →
       exec (.responseFrameStart p true) s = .next { s with ports := s.ports.set p { c with
         rdy := true
         cache := if r.replay = true ∨ r.body.head? = some 0x01 then c.cache else some ⟨h.seq, r.body⟩
         tx := .response (frameBytes .response ⟨false, r.replay, h.seq⟩ r.body) true } }) ∧
     (∀ front x back, c.tx = .free → noResponse → d.state = .ready →
       q.inFlight = front ++ x :: back → (∀ y ∈ front, y.marked = false) → x.marked = true →
       exec (.resendFrameStart p true) s = .next { s with
         queues := s.queues.set p { q with
           inFlight := front ++ { x with marked := false } :: back }
         ports := s.ports.set p { c with
           rdy := true, tx := .notice (frameBytes .notice ⟨false, true, x.seq⟩ x.record.bytes) } }) ∧
     (∀ r rest, c.tx = .free → noResponse → d.state = .ready →
       (∀ y ∈ q.inFlight, y.marked = false) → q.unsent = r :: rest →
       q.inFlight.length < c.session.window →
       exec (.noticeFrameStart p true) s = .next { s with
         queues := s.queues.set p { q with
           inFlight := q.inFlight ++ [⟨r, d.nextSeq, false⟩], unsent := rest }
         ports := s.ports.set p { c with
           rdy := true
           delivery := { d with
             nextSeq := d.nextSeq + 1, timer := if q.inFlight = [] then some 0 else d.timer }
           tx := .notice (frameBytes .notice ⟨false, false, d.nextSeq⟩ r.bytes) } }) ∧
     (c.tx = .free → ∀ rdy,
       ((∃ h b r, c.service = some ⟨h, b, some r⟩) →
         exec (.resendFrameStart p rdy) s = .next (sampled rdy) ∧
         exec (.noticeFrameStart p rdy) s = .next (sampled rdy)) ∧
       (noResponse → exec (.responseFrameStart p rdy) s = .next (sampled rdy)) ∧
       (d.state ≠ .ready → exec (.resendFrameStart p rdy) s = .next (sampled rdy) ∧
         exec (.noticeFrameStart p rdy) s = .next (sampled rdy)) ∧
       ((∀ y ∈ q.inFlight, y.marked = false) →
         exec (.resendFrameStart p rdy) s = .next (sampled rdy)) ∧
       ((∃ y ∈ q.inFlight, y.marked = true) ∨ q.unsent = [] ∨
           c.session.window ≤ q.inFlight.length →
         exec (.noticeFrameStart p rdy) s = .next (sampled rdy))) ∧
     (∀ i rdy, (i = .responseFrameStart p rdy ∨ i = .resendFrameStart p rdy ∨
         i = .noticeFrameStart p rdy) →
       (c.tx = .free → rdy = false → exec i s = .next (sampled rdy)) ∧
       (c.tx ≠ .free → exec i s = .next s))) ∧
  (∀ (s : State) (p : Port) (f : List Byte),
     ((s.port p).tx = .response f true → exec (.endOfService p) s = .next
       { s with ports := s.ports.set p { s.port p with tx := .free, service := none } }) ∧
     ((s.port p).tx = .response f false → exec (.endOfService p) s = .next
       { s with ports := s.ports.set p { s.port p with tx := .free } }) ∧
     ((s.port p).tx = .notice f → exec (.noticeFrameEnd p) s = .next
       { s with ports := s.ports.set p { s.port p with tx := .free } }))

/-! ### The receiver -/

/-- The receiver takes a character by the checks of R158 and R159, in their order. The events of a
port's receiver (R158 to R163): RECEIVE_ERROR and FRAME_HEADER take their characters by the
receiver's rules and record its errors; GAP discards a frame being gathered; BREAK takes its first
character, tears down an OPEN session with cause BREAK and waits for the line to mark, which
RETURN_TO_MARKING reports; an unused RESPONSE or NOTICE frame only reloads the keepalive count. What
a command's characters stand for is the model's choice (notes/assumptions/7.md). -/
def Obligations.ReceiverStepsAndEvents : Prop :=
  (∀ (ch : RxChar) (hd len : Byte) (body : List Byte) (hi lo : Byte),
     let back (e : Option RxError) : RxStep := ⟨.hunt, e, false⟩
     let on (got : List Byte) : RxStep := ⟨.inFrame got, none, false⟩
     takeChar .hunt ch = (if ch.mark = false then back none
       else if ch.stopGood then on [ch.data] else back (some .framing)) ∧
     (∀ got, ch.stopGood = false → takeChar (.inFrame got) ch = back (some .framing)) ∧
     (∀ got, ch.stopGood = true → ch.mark = true →
       takeChar (.inFrame got) ch = ⟨.inFrame [ch.data], some .aborted, false⟩) ∧
     (ch.stopGood = true → ch.mark = false →
       takeChar (.inFrame [hd]) ch =
         (if ch.data.toNat ≤ 24 then on [hd, ch.data] else back (some .length)) ∧
       (body.length < len.toNat + 1 → takeChar (.inFrame (hd :: len :: body)) ch =
         on (hd :: len :: (body ++ [ch.data]))) ∧
       (body.length = len.toNat → ch.data = lo →
         takeChar (.inFrame (hd :: len :: (body ++ [hi]))) ch =
           (if [hi, lo] = crcBytes (hd :: len :: body) then ⟨.hunt, none, true⟩
             else back (some .crc))))) ∧
  (∀ (s : State) (p : Port), s.listening p = true →
     let c := s.port p
     let put (c' : PortCtl) : State := { s with ports := s.ports.set p c' }
     let broken : PortCtl := { c with
       rx := .hunt, awaitMark := true
       lastError := if c.rx = .hunt then c.lastError else .framing }
     (∀ chars, (takeChars c.rx chars).accepted = false →
       exec (.receiveError p chars) s = .next (put { c with
         rx := (takeChars c.rx chars).rx
         lastError := (takeChars c.rx chars).error.getD c.lastError })) ∧
     (∀ data, exec (.frameHeader p data) s = .next (put { c with
       rx := .inFrame [data]
       lastError := if c.rx = .hunt then c.lastError else .aborted })) ∧
     (∀ got, c.rx = .inFrame got →
       exec (.gap p) s = .next (put { c with rx := .hunt, lastError := .gap })) ∧
     (c.rx = .hunt → exec (.gap p) s = .next s) ∧
     (c.session.isOpen = true →
       exec (.breakLine p) s = .next ((put broken).teardown p .lineBreak)) ∧
     (c.session.isOpen = false → exec (.breakLine p) s = .next (put broken)) ∧
     (∀ t : State, t.standby.running = true → exec (.returnToMarking p) t = .next
       { t with ports := t.ports.set p { t.port p with awaitMark := false } }) ∧
     (∀ cls h body, body.length ≤ 24 →
       let bytes := frameBytes (match cls with
         | UnusedClass.response => FrameClass.response
         | UnusedClass.notice => FrameClass.notice) h body
       exec (.unusedFrame p cls h body) s = .next (put { c.frameTaken bytes with
         session := (c.frameTaken bytes).session.reloaded })))

/-- A frame and the receiver agree (R154, R156 to R159, R180; that a line is one level a bit time,
sampled once, is the model's choice, notes/assumptions/17.md): a character is eleven levels on its
line, and the receiver forms each character again from the levels a port drives for a frame; the
characters of every frame with a body of at most 24 are accepted at the last of them and not before;
the header's fields are read back as they were sent, bit 7 aside; and the CRC is that of R157's
check value. -/
def Obligations.ReceiverAcceptsFrames : Prop :=
  (∀ ch : RxChar, charLevels ch = [false, ch.data.getLsbD 0, ch.data.getLsbD 1, ch.data.getLsbD 2,
      ch.data.getLsbD 3, ch.data.getLsbD 4, ch.data.getLsbD 5, ch.data.getLsbD 6, ch.data.getLsbD 7,
      ch.mark, ch.stopGood] ∧
    ∀ idle : Nat, takeLevels (.between true) (List.replicate idle true ++ charLevels ch) =
      (.between ch.stopGood, [ch])) ∧
  (∀ (frame : List Byte) (b : Bool), Transmitter.levels .free = [] ∧
    (Transmitter.response frame b).levels = (Transmitter.notice frame).levels ∧
    takeLevels (.between true) (Transmitter.notice frame).levels =
      (.between true, lineChars frame)) ∧
  (∀ (cls : FrameClass) (h : Header) (body : List Byte), body.length ≤ Config.bodyRoom →
    let frame := lineChars (frameBytes cls h body)
    frame.length = body.length + 4 ∧ takeChars .hunt frame = ⟨.hunt, none, true⟩ ∧
    ∀ n, n < frame.length → (takeChars .hunt (frame.take n)).accepted = false ∧
      (takeChars .hunt (frame.take n)).error = none) ∧
  (∀ (cls : FrameClass) (h : Header), headerOf (headerByte cls h) = (cls, h)) ∧
  (∀ b : Byte, headerByte (headerOf b).1 (headerOf b).2 = b) ∧
  crcOf [0x31, 0x32, 0x33, 0x34, 0x35, 0x36, 0x37, 0x38, 0x39] = 0x29B1

/-! ### The Standby Controller -/

/-- A change of filtered PF, of filtered RST or of VDD-good (R172, R173, R175 to R177): the flag
follows the standby condition and releases the WAKE latch as it clears; hold becoming true in a
running port domain holds it, and hold becoming false in a held one starts it, with the start cause
as R172 records it; an input that changes neither changes the Standby Controller alone. What a hold
and a start do beyond it (R76, R97, R110, R149, R170, R173, R175): the hold ends the lease with
cause RESET, resets every port's controller, returns every in-flight record to unsent and pauses the
engine; the start reads the straps, writes the start cause as every port's last session end, and has
the engine take up the head of the Search Queue. No retained block changes. PF and RST are sampled
at each crystal cycle, and a filtered level changes at the fourth consecutive sample of another
level (R172). Which claims on their way a hold drops, and how a command gives a level at a pin or
behind its filter, is the model's reading (notes/assumptions/8.md, notes/assumptions/10.md). That a
hold and a start leave the seconds and ticks due that are not yet delivered is the model's choice
(notes/assumptions/22.md), and so is the order in which an empty queue takes what is due, a filtered
change of PF first and then of RST, ahead of every mark (notes/assumptions/3.md). -/
def Obligations.StandbyHoldAndStart : Prop :=
  (∀ (s : State) (level : Bool) (straps : Straps),
     let b := s.standby
     let taken (x : Pin) : Pin := ⟨if x.run = 4 then x.level else level, 0⟩
     let pfTaken : State := { s with standby := { b with pfPin := taken b.pfPin } }
     let rstTaken : State := { s with standby := { b with rstPin := taken b.rstPin } }
     exec (.pf level straps) s = .next (pfTaken.inputs level b.rst b.vddGood straps) ∧
     exec (.rst level straps) s = .next (rstTaken.inputs b.pf level b.vddGood straps) ∧
     exec .vddLoss s = .next (s.inputs b.pf b.rst false noStraps) ∧
     exec (.vddGood straps) s = .next (s.inputs b.pf b.rst true straps) ∧
     exec (.pf level straps .pin) s = .next { s with
       standby := { b with pfPin := { b.pfPin with level } }, pins := straps } ∧
     exec (.rst level straps .pin) s = .next { s with
       standby := { b with rstPin := { b.rstPin with level } }, pins := straps }) ∧
  (∀ (s : State) (n : Nat),
     let b := s.standby
     let t := (crystalCycle^[n] s).standby
     let filters (x y : Pin) (filtered : Bool) : Prop :=
       y.level = x.level ∧ (x.run = 4 → y = x) ∧
       (x.run < 4 → 0 < n → x.level = filtered → y.run = 0) ∧
       (x.run < 4 → x.level ≠ filtered → y.run = min 4 (x.run + n))
     filters b.pfPin t.pfPin b.pf ∧ filters b.rstPin t.rstPin b.rst ∧
     (s.pending = [] → nextClaim s = none →
       (b.pfPin.run = 4 → step s = exec (.pf (!b.pf) s.pins) s) ∧
       (b.pfPin.run ≠ 4 → b.rstPin.run = 4 → step s = exec (.rst (!b.rst) s.pins) s))) ∧
  (∀ (s : State) (pf rst good : Bool) (straps : Straps),
     let t := s.inputs pf rst good straps
     let standby := pf || !good
     let hold := standby || rst
     let b : Standby := { s.standby with
       pf, rst, vddGood := good, flag := standby, wake := s.standby.wake && standby }
     (hold = true → s.standby.running = true → t = ({ s with standby := { b with
       running := false, cause := if standby then .standby else .reset } }).holdDomain) ∧
     (hold = true → s.standby.running = false → t = { s with standby := { b with
       cause := if s.standby.cause ≠ .none ∧ standby = true ∧ s.standby.flag = false then .standby
         else s.standby.cause } }) ∧
     (hold = false → s.standby.running = true → t = { s with standby := b }) ∧
     (hold = false → s.standby.running = false →
       t = ({ s with standby := b }).startDomain straps)) ∧
  (∀ s : State,
    let e := s.endLease (some .reset)
    let t := s.holdDomain
    t = { s with
      lease := e.lease, queues := t.queues, ports := t.ports
      search := { s.search with engine := .paused }
      transit := { e.transit with kicks := [], sessionEnds := [] } } ∧
    (∀ p, t.queue p = (s.queue p).returnToUnsent) ∧
    (∀ p, t.port p = { PortCtl.atReset (s.port p).session.lastEnd with rdy := (s.port p).rdy })) ∧
  (∀ (s : State) (straps : Straps),
    let t := s.startDomain straps
    let ended : SessionEnd := match s.standby.cause with
      | .none => .none
      | .reset => .reset
      | .standby => .standby
    t = { s with
      ports := t.ports, supervisor := straps.supv, baud := straps.baud, lease := ⟨none, 0⟩
      search := { s.search with engine := match s.search.jobs with
        | [] => .idle
        | j :: _ => .running j.slot .searching }
      standby := { s.standby with running := true, cause := .reset } } ∧
    ∀ p, t.port p = { PortCtl.atReset ended with
      awaitMark := !(straps.marking.get p), rdy := (s.port p).rdy })

end
end

