-- ==== Sys2Proof/Laws/State.lean ====
section
/-! SUPPORT. The small lemmas of the state: what each update of a block leaves in each field. -/

namespace Sys2Proof

/-! ### Collections by port -/

@[simp] theorem Quad.get_set_self {α : Type} (q : Quad α) (p : Port) (a : α) : (q.set p a).get p = a := by
  cases p <;> rfl

theorem Quad.get_set_ne {α : Type} (q : Quad α) {p r : Port} (h : r ≠ p) (a : α) :
    (q.set p a).get r = q.get r := by
  cases p <;> cases r <;> first | rfl | exact absurd rfl h

theorem Quad.get_set {α : Type} (q : Quad α) (p r : Port) (a : α) :
    (q.set p a).get r = if r = p then a else q.get r := by
  split
  · subst_vars; exact q.get_set_self r a
  · exact q.get_set_ne ‹_› a

@[simp] theorem Quad.set_set {α : Type} (q : Quad α) (p : Port) (a b : α) :
    (q.set p a).set p b = q.set p b := by
  cases p <;> rfl

@[simp] theorem Quad.set_get {α : Type} (q : Quad α) (p : Port) : q.set p (q.get p) = q := by
  cases p <;> rfl

@[simp] theorem Quad.get_const {α : Type} (a : α) (p : Port) : (Quad.const a).get p = a := by
  cases p <;> rfl

@[simp] theorem Quad.get_map {α β : Type} (f : α → β) (q : Quad α) (p : Port) :
    (q.map f).get p = f (q.get p) := by
  cases p <;> rfl

/-- Two collections with the same value for every port are equal. -/
theorem Quad.eq_of_get {α : Type} {a b : Quad α} (h : ∀ p, a.get p = b.get p) : a = b := by
  have h0 := h .p0
  have h1 := h .p1
  have h2 := h .p2
  have h3 := h .p3
  cases a; cases b
  simp_all [Quad.get]

@[simp] theorem portOf_portByte (p : Port) : Machine.portOf (Machine.portByte p) = some p := by
  cases p <;> rfl

namespace Machine

/-! ### `onPort` -/

@[simp] theorem State.onPort_pending (s : State) (p : Port) (f : PortCtl → PortCtl) : (s.onPort p f).pending = s.pending := rfl

@[simp] theorem State.onPort_osc (s : State) (p : Port) (f : PortCtl → PortCtl) : (s.onPort p f).osc = s.osc := rfl

@[simp] theorem State.onPort_time (s : State) (p : Port) (f : PortCtl → PortCtl) : (s.onPort p f).time = s.time := rfl

@[simp] theorem State.onPort_lease (s : State) (p : Port) (f : PortCtl → PortCtl) : (s.onPort p f).lease = s.lease := rfl

@[simp] theorem State.onPort_table (s : State) (p : Port) (f : PortCtl → PortCtl) : (s.onPort p f).table = s.table := rfl

@[simp] theorem State.onPort_dueList (s : State) (p : Port) (f : PortCtl → PortCtl) : (s.onPort p f).dueList = s.dueList := rfl

@[simp] theorem State.onPort_search (s : State) (p : Port) (f : PortCtl → PortCtl) : (s.onPort p f).search = s.search := rfl

@[simp] theorem State.onPort_queues (s : State) (p : Port) (f : PortCtl → PortCtl) : (s.onPort p f).queues = s.queues := rfl

@[simp] theorem State.onPort_standby (s : State) (p : Port) (f : PortCtl → PortCtl) : (s.onPort p f).standby = s.standby := rfl

@[simp] theorem State.onPort_supervisor (s : State) (p : Port) (f : PortCtl → PortCtl) : (s.onPort p f).supervisor = s.supervisor := rfl

@[simp] theorem State.onPort_baud (s : State) (p : Port) (f : PortCtl → PortCtl) : (s.onPort p f).baud = s.baud := rfl

@[simp] theorem State.onPort_pins (s : State) (p : Port) (f : PortCtl → PortCtl) : (s.onPort p f).pins = s.pins := rfl

@[simp] theorem State.onPort_transit (s : State) (p : Port) (f : PortCtl → PortCtl) : (s.onPort p f).transit = s.transit := rfl

@[simp] theorem State.onPort_freeIndex (s : State) (p : Port) (f : PortCtl → PortCtl) : (s.onPort p f).freeIndex = s.freeIndex := rfl

/-! ### `onQueue` -/

@[simp] theorem State.onQueue_pending (s : State) (p : Port) (f : NoticeQueue → NoticeQueue) : (s.onQueue p f).pending = s.pending := rfl

@[simp] theorem State.onQueue_osc (s : State) (p : Port) (f : NoticeQueue → NoticeQueue) : (s.onQueue p f).osc = s.osc := rfl

@[simp] theorem State.onQueue_time (s : State) (p : Port) (f : NoticeQueue → NoticeQueue) : (s.onQueue p f).time = s.time := rfl

@[simp] theorem State.onQueue_lease (s : State) (p : Port) (f : NoticeQueue → NoticeQueue) : (s.onQueue p f).lease = s.lease := rfl

@[simp] theorem State.onQueue_table (s : State) (p : Port) (f : NoticeQueue → NoticeQueue) : (s.onQueue p f).table = s.table := rfl

@[simp] theorem State.onQueue_dueList (s : State) (p : Port) (f : NoticeQueue → NoticeQueue) : (s.onQueue p f).dueList = s.dueList := rfl

@[simp] theorem State.onQueue_search (s : State) (p : Port) (f : NoticeQueue → NoticeQueue) : (s.onQueue p f).search = s.search := rfl

@[simp] theorem State.onQueue_ports (s : State) (p : Port) (f : NoticeQueue → NoticeQueue) : (s.onQueue p f).ports = s.ports := rfl

@[simp] theorem State.onQueue_standby (s : State) (p : Port) (f : NoticeQueue → NoticeQueue) : (s.onQueue p f).standby = s.standby := rfl

@[simp] theorem State.onQueue_supervisor (s : State) (p : Port) (f : NoticeQueue → NoticeQueue) : (s.onQueue p f).supervisor = s.supervisor := rfl

@[simp] theorem State.onQueue_baud (s : State) (p : Port) (f : NoticeQueue → NoticeQueue) : (s.onQueue p f).baud = s.baud := rfl

@[simp] theorem State.onQueue_pins (s : State) (p : Port) (f : NoticeQueue → NoticeQueue) : (s.onQueue p f).pins = s.pins := rfl

@[simp] theorem State.onQueue_transit (s : State) (p : Port) (f : NoticeQueue → NoticeQueue) : (s.onQueue p f).transit = s.transit := rfl

@[simp] theorem State.onQueue_freeIndex (s : State) (p : Port) (f : NoticeQueue → NoticeQueue) : (s.onQueue p f).freeIndex = s.freeIndex := rfl

/-! ### `setSlot` -/

@[simp] theorem State.setSlot_pending (s : State) (i : SlotNo) (x : Slot) : (s.setSlot i x).pending = s.pending := rfl

@[simp] theorem State.setSlot_osc (s : State) (i : SlotNo) (x : Slot) : (s.setSlot i x).osc = s.osc := rfl

@[simp] theorem State.setSlot_time (s : State) (i : SlotNo) (x : Slot) : (s.setSlot i x).time = s.time := rfl

@[simp] theorem State.setSlot_lease (s : State) (i : SlotNo) (x : Slot) : (s.setSlot i x).lease = s.lease := rfl

@[simp] theorem State.setSlot_dueList (s : State) (i : SlotNo) (x : Slot) : (s.setSlot i x).dueList = s.dueList := rfl

@[simp] theorem State.setSlot_search (s : State) (i : SlotNo) (x : Slot) : (s.setSlot i x).search = s.search := rfl

@[simp] theorem State.setSlot_queues (s : State) (i : SlotNo) (x : Slot) : (s.setSlot i x).queues = s.queues := rfl

@[simp] theorem State.setSlot_ports (s : State) (i : SlotNo) (x : Slot) : (s.setSlot i x).ports = s.ports := rfl

@[simp] theorem State.setSlot_standby (s : State) (i : SlotNo) (x : Slot) : (s.setSlot i x).standby = s.standby := rfl

@[simp] theorem State.setSlot_supervisor (s : State) (i : SlotNo) (x : Slot) : (s.setSlot i x).supervisor = s.supervisor := rfl

@[simp] theorem State.setSlot_baud (s : State) (i : SlotNo) (x : Slot) : (s.setSlot i x).baud = s.baud := rfl

@[simp] theorem State.setSlot_pins (s : State) (i : SlotNo) (x : Slot) : (s.setSlot i x).pins = s.pins := rfl

@[simp] theorem State.setSlot_transit (s : State) (i : SlotNo) (x : Slot) : (s.setSlot i x).transit = s.transit := rfl

@[simp] theorem State.setSlot_freeIndex (s : State) (i : SlotNo) (x : Slot) : (s.setSlot i x).freeIndex = s.freeIndex := rfl

/-! ### `handNotice` -/

@[simp] theorem State.handNotice_pending (s : State) (src : NoticeSource) (c : Content) (a : Address) : (s.handNotice src c a).pending = s.pending := rfl

@[simp] theorem State.handNotice_osc (s : State) (src : NoticeSource) (c : Content) (a : Address) : (s.handNotice src c a).osc = s.osc := rfl

@[simp] theorem State.handNotice_time (s : State) (src : NoticeSource) (c : Content) (a : Address) : (s.handNotice src c a).time = s.time := rfl

@[simp] theorem State.handNotice_lease (s : State) (src : NoticeSource) (c : Content) (a : Address) : (s.handNotice src c a).lease = s.lease := rfl

@[simp] theorem State.handNotice_table (s : State) (src : NoticeSource) (c : Content) (a : Address) : (s.handNotice src c a).table = s.table := rfl

@[simp] theorem State.handNotice_dueList (s : State) (src : NoticeSource) (c : Content) (a : Address) : (s.handNotice src c a).dueList = s.dueList := rfl

@[simp] theorem State.handNotice_search (s : State) (src : NoticeSource) (c : Content) (a : Address) : (s.handNotice src c a).search = s.search := rfl

@[simp] theorem State.handNotice_queues (s : State) (src : NoticeSource) (c : Content) (a : Address) : (s.handNotice src c a).queues = s.queues := rfl

@[simp] theorem State.handNotice_ports (s : State) (src : NoticeSource) (c : Content) (a : Address) : (s.handNotice src c a).ports = s.ports := rfl

@[simp] theorem State.handNotice_standby (s : State) (src : NoticeSource) (c : Content) (a : Address) : (s.handNotice src c a).standby = s.standby := rfl

@[simp] theorem State.handNotice_supervisor (s : State) (src : NoticeSource) (c : Content) (a : Address) : (s.handNotice src c a).supervisor = s.supervisor := rfl

@[simp] theorem State.handNotice_baud (s : State) (src : NoticeSource) (c : Content) (a : Address) : (s.handNotice src c a).baud = s.baud := rfl

@[simp] theorem State.handNotice_pins (s : State) (src : NoticeSource) (c : Content) (a : Address) : (s.handNotice src c a).pins = s.pins := rfl

@[simp] theorem State.handNotice_freeIndex (s : State) (src : NoticeSource) (c : Content) (a : Address) : (s.handNotice src c a).freeIndex = s.freeIndex := rfl

/-! ### `handTimeClaim` -/

@[simp] theorem State.handTimeClaim_pending (s : State) (b : Bool) (c : TimeClaim) : (s.handTimeClaim b c).pending = s.pending := rfl

@[simp] theorem State.handTimeClaim_osc (s : State) (b : Bool) (c : TimeClaim) : (s.handTimeClaim b c).osc = s.osc := rfl

@[simp] theorem State.handTimeClaim_time (s : State) (b : Bool) (c : TimeClaim) : (s.handTimeClaim b c).time = s.time := rfl

@[simp] theorem State.handTimeClaim_lease (s : State) (b : Bool) (c : TimeClaim) : (s.handTimeClaim b c).lease = s.lease := rfl

@[simp] theorem State.handTimeClaim_table (s : State) (b : Bool) (c : TimeClaim) : (s.handTimeClaim b c).table = s.table := rfl

@[simp] theorem State.handTimeClaim_dueList (s : State) (b : Bool) (c : TimeClaim) : (s.handTimeClaim b c).dueList = s.dueList := rfl

@[simp] theorem State.handTimeClaim_search (s : State) (b : Bool) (c : TimeClaim) : (s.handTimeClaim b c).search = s.search := rfl

@[simp] theorem State.handTimeClaim_queues (s : State) (b : Bool) (c : TimeClaim) : (s.handTimeClaim b c).queues = s.queues := rfl

@[simp] theorem State.handTimeClaim_ports (s : State) (b : Bool) (c : TimeClaim) : (s.handTimeClaim b c).ports = s.ports := rfl

@[simp] theorem State.handTimeClaim_standby (s : State) (b : Bool) (c : TimeClaim) : (s.handTimeClaim b c).standby = s.standby := rfl

@[simp] theorem State.handTimeClaim_supervisor (s : State) (b : Bool) (c : TimeClaim) : (s.handTimeClaim b c).supervisor = s.supervisor := rfl

@[simp] theorem State.handTimeClaim_baud (s : State) (b : Bool) (c : TimeClaim) : (s.handTimeClaim b c).baud = s.baud := rfl

@[simp] theorem State.handTimeClaim_pins (s : State) (b : Bool) (c : TimeClaim) : (s.handTimeClaim b c).pins = s.pins := rfl

@[simp] theorem State.handTimeClaim_freeIndex (s : State) (b : Bool) (c : TimeClaim) : (s.handTimeClaim b c).freeIndex = s.freeIndex := rfl

/-! ### `handLeaseEnd` -/

@[simp] theorem State.handLeaseEnd_pending (s : State) (p : Port) : (s.handLeaseEnd p).pending = s.pending := rfl

@[simp] theorem State.handLeaseEnd_osc (s : State) (p : Port) : (s.handLeaseEnd p).osc = s.osc := rfl

@[simp] theorem State.handLeaseEnd_time (s : State) (p : Port) : (s.handLeaseEnd p).time = s.time := rfl

@[simp] theorem State.handLeaseEnd_lease (s : State) (p : Port) : (s.handLeaseEnd p).lease = s.lease := rfl

@[simp] theorem State.handLeaseEnd_table (s : State) (p : Port) : (s.handLeaseEnd p).table = s.table := rfl

@[simp] theorem State.handLeaseEnd_dueList (s : State) (p : Port) : (s.handLeaseEnd p).dueList = s.dueList := rfl

@[simp] theorem State.handLeaseEnd_search (s : State) (p : Port) : (s.handLeaseEnd p).search = s.search := rfl

@[simp] theorem State.handLeaseEnd_queues (s : State) (p : Port) : (s.handLeaseEnd p).queues = s.queues := rfl

@[simp] theorem State.handLeaseEnd_ports (s : State) (p : Port) : (s.handLeaseEnd p).ports = s.ports := rfl

@[simp] theorem State.handLeaseEnd_standby (s : State) (p : Port) : (s.handLeaseEnd p).standby = s.standby := rfl

@[simp] theorem State.handLeaseEnd_supervisor (s : State) (p : Port) : (s.handLeaseEnd p).supervisor = s.supervisor := rfl

@[simp] theorem State.handLeaseEnd_baud (s : State) (p : Port) : (s.handLeaseEnd p).baud = s.baud := rfl

@[simp] theorem State.handLeaseEnd_pins (s : State) (p : Port) : (s.handLeaseEnd p).pins = s.pins := rfl

@[simp] theorem State.handLeaseEnd_freeIndex (s : State) (p : Port) : (s.handLeaseEnd p).freeIndex = s.freeIndex := rfl

/-! ### `handLook` -/

@[simp] theorem State.handLook_pending (s : State) (m : LookMsg) : (s.handLook m).pending = s.pending := rfl

@[simp] theorem State.handLook_osc (s : State) (m : LookMsg) : (s.handLook m).osc = s.osc := rfl

@[simp] theorem State.handLook_time (s : State) (m : LookMsg) : (s.handLook m).time = s.time := rfl

@[simp] theorem State.handLook_lease (s : State) (m : LookMsg) : (s.handLook m).lease = s.lease := rfl

@[simp] theorem State.handLook_table (s : State) (m : LookMsg) : (s.handLook m).table = s.table := rfl

@[simp] theorem State.handLook_dueList (s : State) (m : LookMsg) : (s.handLook m).dueList = s.dueList := rfl

@[simp] theorem State.handLook_search (s : State) (m : LookMsg) : (s.handLook m).search = s.search := rfl

@[simp] theorem State.handLook_queues (s : State) (m : LookMsg) : (s.handLook m).queues = s.queues := rfl

@[simp] theorem State.handLook_ports (s : State) (m : LookMsg) : (s.handLook m).ports = s.ports := rfl

@[simp] theorem State.handLook_standby (s : State) (m : LookMsg) : (s.handLook m).standby = s.standby := rfl

@[simp] theorem State.handLook_supervisor (s : State) (m : LookMsg) : (s.handLook m).supervisor = s.supervisor := rfl

@[simp] theorem State.handLook_baud (s : State) (m : LookMsg) : (s.handLook m).baud = s.baud := rfl

@[simp] theorem State.handLook_pins (s : State) (m : LookMsg) : (s.handLook m).pins = s.pins := rfl

@[simp] theorem State.handLook_freeIndex (s : State) (m : LookMsg) : (s.handLook m).freeIndex = s.freeIndex := rfl

/-! ### `present` -/

@[simp] theorem State.present_pending (s : State) (n : Nat) (q : Option Nat) : (s.present n q).pending = s.pending := rfl

@[simp] theorem State.present_osc (s : State) (n : Nat) (q : Option Nat) : (s.present n q).osc = s.osc := rfl

@[simp] theorem State.present_time (s : State) (n : Nat) (q : Option Nat) : (s.present n q).time = s.time := rfl

@[simp] theorem State.present_lease (s : State) (n : Nat) (q : Option Nat) : (s.present n q).lease = s.lease := rfl

@[simp] theorem State.present_table (s : State) (n : Nat) (q : Option Nat) : (s.present n q).table = s.table := rfl

@[simp] theorem State.present_dueList (s : State) (n : Nat) (q : Option Nat) : (s.present n q).dueList = s.dueList := rfl

@[simp] theorem State.present_search (s : State) (n : Nat) (q : Option Nat) : (s.present n q).search = s.search := rfl

@[simp] theorem State.present_queues (s : State) (n : Nat) (q : Option Nat) : (s.present n q).queues = s.queues := rfl

@[simp] theorem State.present_ports (s : State) (n : Nat) (q : Option Nat) : (s.present n q).ports = s.ports := rfl

@[simp] theorem State.present_standby (s : State) (n : Nat) (q : Option Nat) : (s.present n q).standby = s.standby := rfl

@[simp] theorem State.present_supervisor (s : State) (n : Nat) (q : Option Nat) : (s.present n q).supervisor = s.supervisor := rfl

@[simp] theorem State.present_baud (s : State) (n : Nat) (q : Option Nat) : (s.present n q).baud = s.baud := rfl

@[simp] theorem State.present_pins (s : State) (n : Nat) (q : Option Nat) : (s.present n q).pins = s.pins := rfl

@[simp] theorem State.present_freeIndex (s : State) (n : Nat) (q : Option Nat) : (s.present n q).freeIndex = s.freeIndex := rfl

/-! ### `leaveLists` -/

@[simp] theorem State.leaveLists_pending (s : State) (i : SlotNo) : (s.leaveLists i).pending = s.pending := rfl

@[simp] theorem State.leaveLists_osc (s : State) (i : SlotNo) : (s.leaveLists i).osc = s.osc := rfl

@[simp] theorem State.leaveLists_time (s : State) (i : SlotNo) : (s.leaveLists i).time = s.time := rfl

@[simp] theorem State.leaveLists_lease (s : State) (i : SlotNo) : (s.leaveLists i).lease = s.lease := rfl

@[simp] theorem State.leaveLists_table (s : State) (i : SlotNo) : (s.leaveLists i).table = s.table := rfl

@[simp] theorem State.leaveLists_queues (s : State) (i : SlotNo) : (s.leaveLists i).queues = s.queues := rfl

@[simp] theorem State.leaveLists_ports (s : State) (i : SlotNo) : (s.leaveLists i).ports = s.ports := rfl

@[simp] theorem State.leaveLists_standby (s : State) (i : SlotNo) : (s.leaveLists i).standby = s.standby := rfl

@[simp] theorem State.leaveLists_supervisor (s : State) (i : SlotNo) : (s.leaveLists i).supervisor = s.supervisor := rfl

@[simp] theorem State.leaveLists_baud (s : State) (i : SlotNo) : (s.leaveLists i).baud = s.baud := rfl

@[simp] theorem State.leaveLists_pins (s : State) (i : SlotNo) : (s.leaveLists i).pins = s.pins := rfl

@[simp] theorem State.leaveLists_transit (s : State) (i : SlotNo) : (s.leaveLists i).transit = s.transit := rfl

@[simp] theorem State.leaveLists_freeIndex (s : State) (i : SlotNo) : (s.leaveLists i).freeIndex = s.freeIndex := rfl

/-! ### `freeSlot` -/

@[simp] theorem State.freeSlot_pending (s : State) (i : SlotNo) : (s.freeSlot i).pending = s.pending := rfl

@[simp] theorem State.freeSlot_osc (s : State) (i : SlotNo) : (s.freeSlot i).osc = s.osc := rfl

@[simp] theorem State.freeSlot_time (s : State) (i : SlotNo) : (s.freeSlot i).time = s.time := rfl

@[simp] theorem State.freeSlot_lease (s : State) (i : SlotNo) : (s.freeSlot i).lease = s.lease := rfl

@[simp] theorem State.freeSlot_queues (s : State) (i : SlotNo) : (s.freeSlot i).queues = s.queues := rfl

@[simp] theorem State.freeSlot_ports (s : State) (i : SlotNo) : (s.freeSlot i).ports = s.ports := rfl

@[simp] theorem State.freeSlot_standby (s : State) (i : SlotNo) : (s.freeSlot i).standby = s.standby := rfl

@[simp] theorem State.freeSlot_supervisor (s : State) (i : SlotNo) : (s.freeSlot i).supervisor = s.supervisor := rfl

@[simp] theorem State.freeSlot_baud (s : State) (i : SlotNo) : (s.freeSlot i).baud = s.baud := rfl

@[simp] theorem State.freeSlot_pins (s : State) (i : SlotNo) : (s.freeSlot i).pins = s.pins := rfl

@[simp] theorem State.freeSlot_transit (s : State) (i : SlotNo) : (s.freeSlot i).transit = s.transit := rfl

@[simp] theorem State.freeSlot_freeIndex (s : State) (i : SlotNo) : (s.freeSlot i).freeIndex = s.freeIndex := rfl

/-! ### `respond` -/

@[simp] theorem State.respond_pending (s : State) (p : Port) (body : List Byte) : (s.respond p body).pending = s.pending := rfl

@[simp] theorem State.respond_osc (s : State) (p : Port) (body : List Byte) : (s.respond p body).osc = s.osc := rfl

@[simp] theorem State.respond_time (s : State) (p : Port) (body : List Byte) : (s.respond p body).time = s.time := rfl

@[simp] theorem State.respond_lease (s : State) (p : Port) (body : List Byte) : (s.respond p body).lease = s.lease := rfl

@[simp] theorem State.respond_table (s : State) (p : Port) (body : List Byte) : (s.respond p body).table = s.table := rfl

@[simp] theorem State.respond_dueList (s : State) (p : Port) (body : List Byte) : (s.respond p body).dueList = s.dueList := rfl

@[simp] theorem State.respond_search (s : State) (p : Port) (body : List Byte) : (s.respond p body).search = s.search := rfl

@[simp] theorem State.respond_queues (s : State) (p : Port) (body : List Byte) : (s.respond p body).queues = s.queues := rfl

@[simp] theorem State.respond_standby (s : State) (p : Port) (body : List Byte) : (s.respond p body).standby = s.standby := rfl

@[simp] theorem State.respond_supervisor (s : State) (p : Port) (body : List Byte) : (s.respond p body).supervisor = s.supervisor := rfl

@[simp] theorem State.respond_baud (s : State) (p : Port) (body : List Byte) : (s.respond p body).baud = s.baud := rfl

@[simp] theorem State.respond_pins (s : State) (p : Port) (body : List Byte) : (s.respond p body).pins = s.pins := rfl

@[simp] theorem State.respond_transit (s : State) (p : Port) (body : List Byte) : (s.respond p body).transit = s.transit := rfl

@[simp] theorem State.respond_freeIndex (s : State) (p : Port) (body : List Byte) : (s.respond p body).freeIndex = s.freeIndex := rfl

/-! ### `serving` -/

@[simp] theorem State.serving_pending (s : State) (p : Port) (h : Header) (body : List Byte) : (s.serving p h body).pending = s.pending := rfl

@[simp] theorem State.serving_osc (s : State) (p : Port) (h : Header) (body : List Byte) : (s.serving p h body).osc = s.osc := rfl

@[simp] theorem State.serving_time (s : State) (p : Port) (h : Header) (body : List Byte) : (s.serving p h body).time = s.time := rfl

@[simp] theorem State.serving_lease (s : State) (p : Port) (h : Header) (body : List Byte) : (s.serving p h body).lease = s.lease := rfl

@[simp] theorem State.serving_table (s : State) (p : Port) (h : Header) (body : List Byte) : (s.serving p h body).table = s.table := rfl

@[simp] theorem State.serving_dueList (s : State) (p : Port) (h : Header) (body : List Byte) : (s.serving p h body).dueList = s.dueList := rfl

@[simp] theorem State.serving_search (s : State) (p : Port) (h : Header) (body : List Byte) : (s.serving p h body).search = s.search := rfl

@[simp] theorem State.serving_queues (s : State) (p : Port) (h : Header) (body : List Byte) : (s.serving p h body).queues = s.queues := rfl

@[simp] theorem State.serving_standby (s : State) (p : Port) (h : Header) (body : List Byte) : (s.serving p h body).standby = s.standby := rfl

@[simp] theorem State.serving_supervisor (s : State) (p : Port) (h : Header) (body : List Byte) : (s.serving p h body).supervisor = s.supervisor := rfl

@[simp] theorem State.serving_baud (s : State) (p : Port) (h : Header) (body : List Byte) : (s.serving p h body).baud = s.baud := rfl

@[simp] theorem State.serving_pins (s : State) (p : Port) (h : Header) (body : List Byte) : (s.serving p h body).pins = s.pins := rfl

@[simp] theorem State.serving_transit (s : State) (p : Port) (h : Header) (body : List Byte) : (s.serving p h body).transit = s.transit := rfl

@[simp] theorem State.serving_freeIndex (s : State) (p : Port) (h : Header) (body : List Byte) : (s.serving p h body).freeIndex = s.freeIndex := rfl

/-! ### `answered` -/

@[simp] theorem State.answered_pending (s : State) (p : Port) (h : Header) (body r : List Byte) : (s.answered p h body r).pending = s.pending := rfl

@[simp] theorem State.answered_osc (s : State) (p : Port) (h : Header) (body r : List Byte) : (s.answered p h body r).osc = s.osc := rfl

@[simp] theorem State.answered_time (s : State) (p : Port) (h : Header) (body r : List Byte) : (s.answered p h body r).time = s.time := rfl

@[simp] theorem State.answered_lease (s : State) (p : Port) (h : Header) (body r : List Byte) : (s.answered p h body r).lease = s.lease := rfl

@[simp] theorem State.answered_table (s : State) (p : Port) (h : Header) (body r : List Byte) : (s.answered p h body r).table = s.table := rfl

@[simp] theorem State.answered_dueList (s : State) (p : Port) (h : Header) (body r : List Byte) : (s.answered p h body r).dueList = s.dueList := rfl

@[simp] theorem State.answered_search (s : State) (p : Port) (h : Header) (body r : List Byte) : (s.answered p h body r).search = s.search := rfl

@[simp] theorem State.answered_queues (s : State) (p : Port) (h : Header) (body r : List Byte) : (s.answered p h body r).queues = s.queues := rfl

@[simp] theorem State.answered_standby (s : State) (p : Port) (h : Header) (body r : List Byte) : (s.answered p h body r).standby = s.standby := rfl

@[simp] theorem State.answered_supervisor (s : State) (p : Port) (h : Header) (body r : List Byte) : (s.answered p h body r).supervisor = s.supervisor := rfl

@[simp] theorem State.answered_baud (s : State) (p : Port) (h : Header) (body r : List Byte) : (s.answered p h body r).baud = s.baud := rfl

@[simp] theorem State.answered_pins (s : State) (p : Port) (h : Header) (body r : List Byte) : (s.answered p h body r).pins = s.pins := rfl

@[simp] theorem State.answered_transit (s : State) (p : Port) (h : Header) (body r : List Byte) : (s.answered p h body r).transit = s.transit := rfl

@[simp] theorem State.answered_freeIndex (s : State) (p : Port) (h : Header) (body r : List Byte) : (s.answered p h body r).freeIndex = s.freeIndex := rfl

/-! ### `teardown` -/

@[simp] theorem State.teardown_pending (s : State) (p : Port) (c : SessionEnd) : (s.teardown p c).pending = s.pending := rfl

@[simp] theorem State.teardown_osc (s : State) (p : Port) (c : SessionEnd) : (s.teardown p c).osc = s.osc := rfl

@[simp] theorem State.teardown_time (s : State) (p : Port) (c : SessionEnd) : (s.teardown p c).time = s.time := rfl

@[simp] theorem State.teardown_lease (s : State) (p : Port) (c : SessionEnd) : (s.teardown p c).lease = s.lease := rfl

@[simp] theorem State.teardown_table (s : State) (p : Port) (c : SessionEnd) : (s.teardown p c).table = s.table := rfl

@[simp] theorem State.teardown_dueList (s : State) (p : Port) (c : SessionEnd) : (s.teardown p c).dueList = s.dueList := rfl

@[simp] theorem State.teardown_search (s : State) (p : Port) (c : SessionEnd) : (s.teardown p c).search = s.search := rfl

@[simp] theorem State.teardown_standby (s : State) (p : Port) (c : SessionEnd) : (s.teardown p c).standby = s.standby := rfl

@[simp] theorem State.teardown_supervisor (s : State) (p : Port) (c : SessionEnd) : (s.teardown p c).supervisor = s.supervisor := rfl

@[simp] theorem State.teardown_baud (s : State) (p : Port) (c : SessionEnd) : (s.teardown p c).baud = s.baud := rfl

@[simp] theorem State.teardown_pins (s : State) (p : Port) (c : SessionEnd) : (s.teardown p c).pins = s.pins := rfl

@[simp] theorem State.teardown_freeIndex (s : State) (p : Port) (c : SessionEnd) : (s.teardown p c).freeIndex = s.freeIndex := rfl

/-! ### `resync` -/

@[simp] theorem State.resync_pending (s : State) (p : Port) : (s.resync p).pending = s.pending := rfl

@[simp] theorem State.resync_osc (s : State) (p : Port) : (s.resync p).osc = s.osc := rfl

@[simp] theorem State.resync_time (s : State) (p : Port) : (s.resync p).time = s.time := rfl

@[simp] theorem State.resync_lease (s : State) (p : Port) : (s.resync p).lease = s.lease := rfl

@[simp] theorem State.resync_table (s : State) (p : Port) : (s.resync p).table = s.table := rfl

@[simp] theorem State.resync_dueList (s : State) (p : Port) : (s.resync p).dueList = s.dueList := rfl

@[simp] theorem State.resync_search (s : State) (p : Port) : (s.resync p).search = s.search := rfl

@[simp] theorem State.resync_standby (s : State) (p : Port) : (s.resync p).standby = s.standby := rfl

@[simp] theorem State.resync_supervisor (s : State) (p : Port) : (s.resync p).supervisor = s.supervisor := rfl

@[simp] theorem State.resync_baud (s : State) (p : Port) : (s.resync p).baud = s.baud := rfl

@[simp] theorem State.resync_pins (s : State) (p : Port) : (s.resync p).pins = s.pins := rfl

@[simp] theorem State.resync_transit (s : State) (p : Port) : (s.resync p).transit = s.transit := rfl

@[simp] theorem State.resync_freeIndex (s : State) (p : Port) : (s.resync p).freeIndex = s.freeIndex := rfl

/-! ### `atPins` -/

@[simp] theorem State.atPins_pending (s : State) (x : Straps) (b : Standby) : (s.atPins x b).pending = s.pending := rfl

@[simp] theorem State.atPins_osc (s : State) (x : Straps) (b : Standby) : (s.atPins x b).osc = s.osc := rfl

@[simp] theorem State.atPins_time (s : State) (x : Straps) (b : Standby) : (s.atPins x b).time = s.time := rfl

@[simp] theorem State.atPins_lease (s : State) (x : Straps) (b : Standby) : (s.atPins x b).lease = s.lease := rfl

@[simp] theorem State.atPins_table (s : State) (x : Straps) (b : Standby) : (s.atPins x b).table = s.table := rfl

@[simp] theorem State.atPins_dueList (s : State) (x : Straps) (b : Standby) : (s.atPins x b).dueList = s.dueList := rfl

@[simp] theorem State.atPins_search (s : State) (x : Straps) (b : Standby) : (s.atPins x b).search = s.search := rfl

@[simp] theorem State.atPins_queues (s : State) (x : Straps) (b : Standby) : (s.atPins x b).queues = s.queues := rfl

@[simp] theorem State.atPins_ports (s : State) (x : Straps) (b : Standby) : (s.atPins x b).ports = s.ports := rfl

@[simp] theorem State.atPins_standby (s : State) (x : Straps) (b : Standby) : (s.atPins x b).standby = b := rfl

@[simp] theorem State.atPins_supervisor (s : State) (x : Straps) (b : Standby) : (s.atPins x b).supervisor = s.supervisor := rfl

@[simp] theorem State.atPins_baud (s : State) (x : Straps) (b : Standby) : (s.atPins x b).baud = s.baud := rfl

@[simp] theorem State.atPins_pins (s : State) (x : Straps) (b : Standby) : (s.atPins x b).pins = x := rfl

@[simp] theorem State.atPins_transit (s : State) (x : Straps) (b : Standby) : (s.atPins x b).transit = s.transit := rfl

@[simp] theorem State.atPins_freeIndex (s : State) (x : Straps) (b : Standby) : (s.atPins x b).freeIndex = s.freeIndex := rfl

/-! ### One port's controller, queue and slot after an update -/

@[simp] theorem State.onPort_port_self (s : State) (p : Port) (f : PortCtl → PortCtl) :
    (s.onPort p f).port p = f (s.port p) := by
  simp [State.port, State.onPort]

theorem State.onPort_port_ne (s : State) {p q : Port} (h : q ≠ p) (f : PortCtl → PortCtl) :
    (s.onPort p f).port q = s.port q := Quad.get_set_ne _ h _

@[simp] theorem State.onPort_queue (s : State) (p q : Port) (f : PortCtl → PortCtl) :
    (s.onPort p f).queue q = s.queue q := rfl

@[simp] theorem State.onPort_slot (s : State) (p : Port) (f : PortCtl → PortCtl) (i : SlotNo) :
    (s.onPort p f).slot i = s.slot i := rfl

@[simp] theorem State.onPort_onPort (s : State) (p : Port) (f g : PortCtl → PortCtl) :
    (s.onPort p f).onPort p g = s.onPort p (g ∘ f) := by
  simp [State.onPort, State.port]

@[simp] theorem State.onQueue_queue_self (s : State) (p : Port) (f : NoticeQueue → NoticeQueue) :
    (s.onQueue p f).queue p = f (s.queue p) := by
  simp [State.queue, State.onQueue]

theorem State.onQueue_queue_ne (s : State) {p q : Port} (h : q ≠ p) (f : NoticeQueue → NoticeQueue) :
    (s.onQueue p f).queue q = s.queue q := Quad.get_set_ne _ h _

@[simp] theorem State.onQueue_port (s : State) (p q : Port) (f : NoticeQueue → NoticeQueue) :
    (s.onQueue p f).port q = s.port q := rfl

@[simp] theorem State.setSlot_slot_self (s : State) (i : SlotNo) (x : Slot) : (s.setSlot i x).slot i = x := by
  simp [State.slot, State.setSlot, Vector.get_eq_getElem]

theorem State.setSlot_slot_ne (s : State) {i j : SlotNo} (h : j ≠ i) (x : Slot) :
    (s.setSlot i x).slot j = s.slot j := by
  have h' : i.val ≠ j.val := fun e => h (Fin.ext e.symm)
  simp [State.slot, State.setSlot, Vector.get_eq_getElem, Vector.getElem_set_ne, h']

@[simp] theorem State.setSlot_quota (s : State) (i : SlotNo) (x : Slot) :
    (s.setSlot i x).table.quota = s.table.quota := rfl

@[simp] theorem State.setSlot_mode (s : State) (i : SlotNo) (x : Slot) :
    (s.setSlot i x).table.mode = s.table.mode := rfl

@[simp] theorem State.setSlot_heldReleases (s : State) (i : SlotNo) (x : Slot) :
    (s.setSlot i x).table.heldReleases = s.table.heldReleases := rfl

@[simp] theorem State.respond_port_ne (s : State) {p q : Port} (h : q ≠ p) (body : List Byte) :
    (s.respond p body).port q = s.port q := s.onPort_port_ne h _

@[simp] theorem State.respond_port_self (s : State) (p : Port) (body : List Byte) :
    (s.respond p body).port p = (s.port p).respond body := s.onPort_port_self p _

@[simp] theorem State.serving_port_self (s : State) (p : Port) (h : Header) (body : List Byte) :
    (s.serving p h body).port p = (s.port p).serving h body := s.onPort_port_self p _

theorem State.serving_port_ne (s : State) {p q : Port} (hq : q ≠ p) (h : Header) (body : List Byte) :
    (s.serving p h body).port q = s.port q := s.onPort_port_ne hq _

@[simp] theorem State.serving_slot (s : State) (p : Port) (h : Header) (body : List Byte) (i : SlotNo) :
    (s.serving p h body).slot i = s.slot i := rfl

@[simp] theorem State.serving_entry (s : State) (p : Port) (h : Header) (body : List Byte) (i : SlotNo) :
    (s.serving p h body).entry i = s.entry i := rfl

@[simp] theorem State.serving_current (s : State) (p : Port) (h : Header) (body : List Byte) (n : Handle) :
    (s.serving p h body).current n = s.current n := rfl

@[simp] theorem State.serving_queue (s : State) (p q : Port) (h : Header) (body : List Byte) :
    (s.serving p h body).queue q = s.queue q := rfl

@[simp] theorem State.serving_tableNormal (s : State) (p : Port) (h : Header) (body : List Byte) :
    (s.serving p h body).tableNormal = s.tableNormal := rfl

@[simp] theorem State.serving_reference (s : State) (p : Port) (h : Header) (body : List Byte) (i : SlotNo) :
    (s.serving p h body).reference i = s.reference i := rfl

@[simp] theorem State.serving_ownedCount (s : State) (p q : Port) (h : Header) (body : List Byte) :
    (s.serving p h body).ownedCount q = s.ownedCount q := rfl

/-- The mode is NORMAL. -/
theorem State.tableNormal_iff (s : State) : s.tableNormal = true ↔ s.table.mode = .normal := by
  simp [State.tableNormal]

end Machine
end Sys2Proof
end

