-- ==== Sys2Proof/Laws/Entries.lean ====
section
/-! SUPPORT. What writing an entry, freeing one and the operations over all slots can do, said once. -/

namespace Sys2Proof.Machine

/-! ### The lists -/

theorem mem_insertDue {x y : DueItem} {l : List DueItem} : y ∈ insertDue x l ↔ y = x ∨ y ∈ l := by
  induction l with
  | nil => simp [insertDue]
  | cons z rest ih =>
    unfold insertDue
    split
    · simp
    · simp only [List.mem_cons, ih]
      tauto

@[simp] theorem takeUp_nil : takeUp [] = .idle := rfl

@[simp] theorem takeUp_cons (j : Job) (rest : List Job) : takeUp (j :: rest) = .running j.slot .searching := rfl

@[simp] theorem Search.join_jobs (q : Search) (j : Job) : (q.join j).jobs = q.jobs ++ [j] := rfl

@[simp] theorem Search.leave_jobs (q : Search) (i : SlotNo) :
    (q.leave i).jobs = q.jobs.filter (·.slot != i) := rfl

@[simp] theorem Search.resetRef_jobs (q : Search) (i : SlotNo) (ref : Reference) :
    (q.resetRef i ref).jobs = q.jobs.map fun j => if j.slot = i then { j with ref } else j := rfl

/-! ### Writing an entry -/

/-- The three things writing an entry can do: it joins the Due List, it joins the Search Queue, or it
joins neither. -/
theorem State.place_cases (s : State) (i : SlotNo) (e : Entry) (ref : Reference) :
    let t := (s.leaveLists i).setSlot i ⟨(s.slot i).gen, some e⟩
    (∃ due, e.state = .armed due ∧ s.place i e ref = t.joinDue i due) ∨
    (e.state = .searching ∧
      s.place i e ref = { t with search := t.search.join ⟨i, (s.slot i).gen, ref⟩ }) ∨
    ((∀ due, e.state ≠ .armed due) ∧ e.state ≠ .searching ∧ s.place i e ref = t) := by
  unfold State.place
  cases h : e.state <;> simp

/-- Joining the Due List changes it and, in NORMAL mode, hands on a look. -/
theorem State.joinDue_cases (s : State) (i : SlotNo) (due : Nat) :
    (s.table.mode = .normal ∧
      s.joinDue i due = ({ s with dueList := insertDue ⟨due, i⟩ s.dueList }).handLook .tableEvent) ∨
    (s.table.mode ≠ .normal ∧ s.joinDue i due = { s with dueList := insertDue ⟨due, i⟩ s.dueList }) := by
  by_cases h : s.table.mode = .normal
  · exact .inl ⟨h, by simp [State.joinDue, State.tableNormal, h]⟩
  · exact .inr ⟨h, by simp [State.joinDue, State.tableNormal, h]⟩

/-- What each of the four parts of writing an entry keeps, writing an entry keeps. -/
theorem State.place_keeps {P : State → Prop} {s : State} {i : SlotNo} {e : Entry} {ref : Reference}
    (hslot : ∀ t x, P t → P (t.setSlot i x))
    (hdue : ∀ (t : State) l, P t → P { t with dueList := l })
    (hsearch : ∀ (t : State) q, P t → P { t with search := q })
    (hlook : ∀ t, P t → P (t.handLook .tableEvent)) (hs : P s) : P (s.place i e ref) := by
  have hl : P (s.leaveLists i) :=
    hsearch { s with dueList := s.dueList.filter (·.slot != i) } (s.search.leave i) (hdue s _ hs)
  have ht := hslot (s.leaveLists i) ⟨(s.slot i).gen, some e⟩ hl
  rcases s.place_cases i e ref with ⟨due, -, h⟩ | ⟨-, h⟩ | ⟨-, -, h⟩ <;> rw [h]
  · rcases State.joinDue_cases ((s.leaveLists i).setSlot i ⟨(s.slot i).gen, some e⟩) i due with
      ⟨-, h⟩ | ⟨-, h⟩ <;> rw [h]
    · exact hlook _ (hdue _ _ ht)
    · exact hdue _ _ ht
  · exact hsearch _ _ ht
  · exact ht

/-- What each of the parts of freeing an entry keeps, freeing an entry keeps. -/
theorem State.freeSlot_keeps {P : State → Prop} {s : State} {i : SlotNo}
    (hslot : ∀ t x, P t → P (t.setSlot i x))
    (hdue : ∀ (t : State) l, P t → P { t with dueList := l })
    (hsearch : ∀ (t : State) q, P t → P { t with search := q }) (hs : P s) : P (s.freeSlot i) :=
  hslot (s.leaveLists i) _
    (hsearch { s with dueList := s.dueList.filter (·.slot != i) } (s.search.leave i) (hdue s _ hs))

/-- The table with one slot replaced is all that writing an entry does to the table. -/
theorem State.place_table (s : State) (i : SlotNo) (e : Entry) (ref : Reference) :
    (s.place i e ref).table = (s.setSlot i ⟨(s.slot i).gen, some e⟩).table := by
  rcases s.place_cases i e ref with ⟨due, -, h⟩ | ⟨-, h⟩ | ⟨-, -, h⟩ <;> rw [h]
  · rcases State.joinDue_cases ((s.leaveLists i).setSlot i ⟨(s.slot i).gen, some e⟩) i due with
      ⟨-, h⟩ | ⟨-, h⟩ <;> rw [h] <;> rfl
  · rfl
  · rfl

/-! ### Operations over all slots -/

/-- What freeing an entry keeps, a release claim keeps. -/
theorem State.releaseEntries_keeps {P : State → Prop} {p : Port}
    (hfree : ∀ t i, P t → P (t.freeSlot i)) {s : State} (hs : P s) : P (s.releaseEntries p) := by
  have hone : ∀ t i, P t → P (t.releaseSlot p i) := by
    intro t i ht
    unfold State.releaseSlot
    split
    · split
      · exact hfree t i ht
      · exact ht
    · exact ht
  unfold State.releaseEntries
  generalize List.finRange 64 = l
  induction l generalizing s with
  | nil => exact hs
  | cons i rest ih => exact ih (hone s i hs)

/-- What ending one live entry keeps, the epoch end of every slot keeps. -/
theorem epochEnd_keeps {P : State → Prop}
    (hend : ∀ t i e, t.entry i = some e → e.state.live = true → P t →
      P ((t.place i { e with state := .spent .epoch } .pastEpoch).handEnded ⟨i, (t.slot i).gen⟩ e .epoch))
    {s : State} (hs : P s) (l : List SlotNo) : P (l.foldl epochEndSlot s) := by
  induction l generalizing s with
  | nil => exact hs
  | cons i rest ih =>
    refine ih ?_
    unfold epochEndSlot
    split
    · exact hs
    · split
      · exact hend _ _ _ ‹_› ‹_› hs
      · exact hs

/-- The treatment of one entry at its visit: it is written again, its job is given a new reference, or
nothing happens. -/
theorem visitEntry_cases (r : Rescan) (i : SlotNo) (e : Entry) (s : State) :
    (∃ st ref, visitEntry r i e s = s.place i { e with state := st } ref) ∨
    (visitEntry r i e s = { s with search := s.search.resetRef i (referenceAfter r.instant) }) ∨
    visitEntry r i e s = s := by
  unfold visitEntry
  split
  · exact .inl ⟨_, _, rfl⟩
  · exact .inl ⟨_, _, rfl⟩
  · exact .inl ⟨_, _, rfl⟩
  · exact .inr (.inl rfl)
  · exact .inr (.inr rfl)

/-! ### Firings -/

@[simp] theorem FiringClaim.settled_next (c : FiringClaim) (e : Entry) :
    (c.settled e).next = c.nextFor e := by
  unfold FiringClaim.settled
  split
  · exact Eq.symm ‹_›
  · rfl

/-- Settling changes nothing of a claim but its next state and its final flag. -/
theorem FiringClaim.settled_rest (c : FiringClaim) (e : Entry) :
    c.settled e = { c with next := c.nextFor e, isFinal := (c.settled e).isFinal } := by
  rw [← c.settled_next e]
  unfold FiringClaim.settled
  split <;> rfl

/-- The claim a look computes for an entry gives it that next state while its counts are unchanged. -/
@[simp] theorem FiringClaim.settled_self (n : Handle) (e : Entry) (instant : Nat) (passed : Option Nat)
    (due : Nat) :
    (firingClaimFor n e instant passed due).settled e = firingClaimFor n e instant passed due := by
  refine if_pos ?_
  simp only [FiringClaim.nextFor, firingClaimFor, Entry.nextState]
  split
  · rfl
  · split <;> first | rfl | exact Eq.symm ‹_›

end Sys2Proof.Machine
end

