-- ==== Sys2Proof/Laws/Handing.lean ====
section
/-! SUPPORT. What the end of the lease, the Notice Queues and the changes of the port domain can do,
said once. -/

namespace Sys2Proof.Machine

/-! ### The end of the lease -/

/-- Everything ending the lease can do. -/
theorem State.endLease_cases (s : State) (cause : Option LeaseCause) :
    (s.lease.holder = none ∧ s.endLease cause = s) ∨
    (∃ p, s.lease.holder = some p ∧ cause = none ∧
      s.endLease cause = ({ s with lease := ⟨none, 0⟩ }).handLeaseEnd p) ∨
    (∃ p c, s.lease.holder = some p ∧ cause = some c ∧
      s.endLease cause = (({ s with lease := ⟨none, 0⟩ }).handNotice .lease (.lease c)
        (.ports (PortSet.single p))).handLeaseEnd p) := by
  unfold State.endLease
  cases h : s.lease.holder with
  | none => simp
  | some p => cases cause <;> simp

/-- Ending the lease changes the lease and what is on its way, and nothing else. -/
theorem State.endLease_frame (s : State) (cause : Option LeaseCause) :
    s.endLease cause = { s with
      lease := (s.endLease cause).lease, transit := (s.endLease cause).transit } := by
  rcases s.endLease_cases cause with ⟨-, h⟩ | ⟨p, -, -, h⟩ | ⟨p, c, -, -, h⟩ <;> rw [h] <;> rfl

/-- After an end of the lease no port holds it. -/
theorem State.endLease_holder (s : State) (cause : Option LeaseCause) :
    (s.endLease cause).lease.holder = none := by
  rcases s.endLease_cases cause with ⟨h, e⟩ | ⟨p, -, -, e⟩ | ⟨p, c, -, -, e⟩ <;> rw [e]
  · exact h
  · rfl
  · rfl

/-! ### The Notice Queues -/

/-- Everything placing a notice in a queue can do: coalesce, join, or be lost. -/
theorem NoticeQueue.placeNotice_cases (q : NoticeQueue) (c : Content) :
    (∃ unsent, q.tryCoalesce c = some unsent ∧ q.placeNotice c = { q with unsent }) ∨
    (q.tryCoalesce c = none ∧ q.size < Config.queueRoom ∧
      q.placeNotice c = { q with unsent := q.unsent ++ [⟨c, q.loss⟩], loss := false }) ∨
    (q.tryCoalesce c = none ∧ Config.queueRoom ≤ q.size ∧ q.placeNotice c = { q with loss := true }) := by
  unfold NoticeQueue.placeNotice
  cases q.tryCoalesce c with
  | some unsent => exact .inl ⟨unsent, rfl, rfl⟩
  | none =>
    by_cases hq : q.size < Config.queueRoom
    · exact .inr (.inl ⟨rfl, hq, by simp [hq]⟩)
    · exact .inr (.inr ⟨rfl, Nat.le_of_not_lt hq, by simp [hq]⟩)

/-- A placed notice leaves what is in flight alone. -/
@[simp] theorem NoticeQueue.placeNotice_inFlight (q : NoticeQueue) (c : Content) :
    (q.placeNotice c).inFlight = q.inFlight := by
  rcases q.placeNotice_cases c with ⟨u, -, h⟩ | ⟨-, -, h⟩ | ⟨-, -, h⟩ <;> rw [h]

/-- Coalescing finds the first record of the handle and replaces it by what it becomes. -/
theorem coalesceFirst_some {h : Handle} {missed : Bool} {count : Nat} {isFinal : Bool}
    {l l' : List Record} (e : coalesceFirst h missed count isFinal l = some l') :
    ∃ front r back, l = front ++ r :: back ∧ (∀ x ∈ front, x.firesFor h = false) ∧
      r.firesFor h = true ∧ l' = front ++ r.coalesce missed count isFinal :: back := by
  induction l generalizing l' with
  | nil => cases e
  | cons x rest ih =>
    unfold coalesceFirst at e
    split at e
    · cases e
      exact ⟨[], x, rest, rfl, by simp, ‹_›, rfl⟩
    · obtain ⟨m, hm, rfl⟩ := Option.map_eq_some_iff.mp e
      obtain ⟨front, r, back, h1, h2, h3, h4⟩ := ih hm
      refine ⟨x :: front, r, back, by simp [h1], ?_, h3, by simp [h4]⟩
      intro y hy
      rcases List.mem_cons.mp hy with rfl | hy
      · exact Bool.eq_false_iff.mpr ‹_›
      · exact h2 y hy

/-- Coalescing finds nothing exactly where no record is of the handle. -/
theorem coalesceFirst_none {h : Handle} {missed : Bool} {count : Nat} {isFinal : Bool}
    {l : List Record} : coalesceFirst h missed count isFinal l = none ↔ ∀ x ∈ l, x.firesFor h = false := by
  induction l with
  | nil => simp [coalesceFirst]
  | cons x rest ih =>
    unfold coalesceFirst
    split
    · simp [*]
    · simp [*]

/-- Coalescing keeps the number of records. -/
theorem coalesceFirst_length {h : Handle} {missed : Bool} {count : Nat} {isFinal : Bool}
    {l l' : List Record} (e : coalesceFirst h missed count isFinal l = some l') : l'.length = l.length := by
  obtain ⟨front, r, back, rfl, -, -, rfl⟩ := coalesceFirst_some e
  simp

@[simp] theorem NoticeQueue.returnToUnsent_inFlight (q : NoticeQueue) : q.returnToUnsent.inFlight = [] := rfl

/-- The merging of unsent records never makes them more. -/
theorem mergeUnsent_length (kept : List Record) (carry : Bool) (l : List Record) :
    (mergeUnsent kept carry l).1.length ≤ kept.length + l.length := by
  induction l generalizing kept carry with
  | nil => simp [mergeUnsent]
  | cons r rest ih =>
    unfold mergeUnsent
    dsimp only
    split
    · rename_i kept' hk
      have hlen : kept'.length = kept.length := by
        split at hk
        · exact coalesceFirst_length hk
        · cases hk
      exact Nat.le_trans (ih _ _) (by simp; omega)
    · exact Nat.le_trans (ih _ _) (by simp; omega)

/-! ### The port domain -/

/-- Everything a change of an input can do: hold a running domain, start a held one, or neither. -/
theorem State.inputs_cases (s : State) (pf rst good : Bool) (straps : Straps) :
    let standby := standbyCond pf good
    let b : Standby := { s.standby with
      pf, rst, vddGood := good, flag := standby, wake := s.standby.wake && standby }
    let held : State := { s with standby := { b with running := false, cause := s.standby.heldCause standby } }
    (holdCond pf rst good = true ∧ s.standby.running = true ∧
      s.inputs pf rst good straps = held.holdDomain) ∨
    (holdCond pf rst good = true ∧ s.standby.running = false ∧ s.inputs pf rst good straps = held) ∨
    (holdCond pf rst good = false ∧ s.standby.running = true ∧
      s.inputs pf rst good straps = { s with standby := b }) ∨
    (holdCond pf rst good = false ∧ s.standby.running = false ∧
      s.inputs pf rst good straps = ({ s with standby := b }).startDomain straps) := by
  unfold State.inputs
  cases holdCond pf rst good <;> cases hr : s.standby.running <;> simp [hr]

/-- A hold leaves the oscillator, the Timebase, the table, the Due List and the Standby Controller
alone, and the records of no queue. -/
theorem State.holdDomain_retained (s : State) :
    let t := s.holdDomain
    t.osc = s.osc ∧ t.time = s.time ∧ t.table = s.table ∧ t.dueList = s.dueList ∧
      t.standby = s.standby ∧ t.pending = s.pending ∧ t.freeIndex = s.freeIndex ∧
      t.search.jobs = s.search.jobs := by
  have h := s.endLease_frame (some .reset)
  refine ⟨?_, ?_, ?_, ?_, ?_, ?_, ?_, ?_⟩ <;> unfold State.holdDomain <;> rw [h]

/-- A hold puts every port's controller in its reset values. -/
@[simp] theorem State.holdDomain_port (s : State) (p : Port) :
    s.holdDomain.port p = (s.port p).heldReset := by
  have h : (s.endLease (some .reset)).ports = s.ports := by rw [s.endLease_frame]
  simp [State.holdDomain, State.port, h]

/-- A start gives every port's controller its start values. -/
@[simp] theorem State.startDomain_port (s : State) (straps : Straps) (p : Port) :
    (s.startDomain straps).port p = (s.port p).started s.standby.cause (straps.marking.get p) := by
  cases p <;> rfl

/-! ### The input filters -/

@[simp] theorem Pin.sample_level (x : Pin) (filtered : Bool) : (x.sample filtered).level = x.level := by
  unfold Pin.sample; split <;> rfl

/-- A change that is due waits for its event; otherwise a sample of another level counts on and one of
the filtered level begins the count anew (R172). -/
theorem Pin.sample_cases (x : Pin) (filtered : Bool) :
    x.due = true ∧ x.sample filtered = x ∨
    x.due = false ∧ x.level = filtered ∧ x.sample filtered = { x with run := 0 } ∨
    x.due = false ∧ x.level ≠ filtered ∧ x.sample filtered = { x with run := x.run + 1 } := by
  cases hd : x.due
  · by_cases hl : x.level = filtered <;> simp [Pin.sample, hd, hl]
  · simp [Pin.sample, hd]

/-! ### Teardown and resynchronisation -/

@[simp] theorem State.teardown_port_self (s : State) (p : Port) (c : SessionEnd) :
    (s.teardown p c).port p = (s.port p).tornDown c := by
  simp [State.teardown, State.onPort, State.onQueue, State.port]

theorem State.teardown_port_ne (s : State) {p q : Port} (h : q ≠ p) (c : SessionEnd) :
    (s.teardown p c).port q = s.port q := Quad.get_set_ne _ h _

@[simp] theorem State.teardown_queue_self (s : State) (p : Port) (c : SessionEnd) :
    (s.teardown p c).queue p = (s.queue p).returnToUnsent := by
  simp [State.teardown, State.onPort, State.onQueue, State.queue]

theorem State.teardown_queue_ne (s : State) {p q : Port} (h : q ≠ p) (c : SessionEnd) :
    (s.teardown p c).queue q = s.queue q := Quad.get_set_ne _ h _

@[simp] theorem State.resync_queue_self (s : State) (p : Port) :
    (s.resync p).queue p = (s.queue p).returnToUnsent := by
  simp [State.resync, State.onPort, State.onQueue, State.queue]

@[simp] theorem State.resync_port_self (s : State) (p : Port) :
    (s.resync p).port p = { s.port p with delivery := ⟨.ready, 0, 0, none⟩ } := by
  simp [State.resync, State.onPort, State.onQueue, State.port]

end Sys2Proof.Machine
end

