-- ==== Sys2Proof/Laws/Serve.lean ====
section
/-! SUPPORT. What taking a request into service can do, said once. -/

namespace Sys2Proof.Machine

/-! ### The receiver at an accepted frame -/

@[simp] theorem PortCtl.frameTaken_service (c : PortCtl) (bs : List Byte) :
    (c.frameTaken bs).service = c.service := by
  unfold PortCtl.frameTaken; split <;> rfl

@[simp] theorem PortCtl.frameTaken_session (c : PortCtl) (bs : List Byte) :
    (c.frameTaken bs).session = c.session := by
  unfold PortCtl.frameTaken; split <;> rfl

@[simp] theorem PortCtl.frameTaken_delivery (c : PortCtl) (bs : List Byte) :
    (c.frameTaken bs).delivery = c.delivery := by
  unfold PortCtl.frameTaken; split <;> rfl

@[simp] theorem PortCtl.frameTaken_staging (c : PortCtl) (bs : List Byte) :
    (c.frameTaken bs).staging = c.staging := by
  unfold PortCtl.frameTaken; split <;> rfl

@[simp] theorem PortCtl.frameTaken_cache (c : PortCtl) (bs : List Byte) :
    (c.frameTaken bs).cache = c.cache := by
  unfold PortCtl.frameTaken; split <;> rfl

@[simp] theorem PortCtl.frameTaken_tx (c : PortCtl) (bs : List Byte) :
    (c.frameTaken bs).tx = c.tx := by
  unfold PortCtl.frameTaken; split <;> rfl

@[simp] theorem PortCtl.frameTaken_rdy (c : PortCtl) (bs : List Byte) :
    (c.frameTaken bs).rdy = c.rdy := by
  unfold PortCtl.frameTaken; split <;> rfl

@[simp] theorem PortCtl.frameTaken_awaitMark (c : PortCtl) (bs : List Byte) :
    (c.frameTaken bs).awaitMark = c.awaitMark := by
  unfold PortCtl.frameTaken; split <;> rfl

@[simp] theorem PortCtl.frameTaken_rx (c : PortCtl) (bs : List Byte) :
    (c.frameTaken bs).rx = .hunt := by
  unfold PortCtl.frameTaken; split
  · assumption
  · rfl

@[simp] theorem PortCtl.frameTaken_replays (c : PortCtl) (bs : List Byte) (h : Header) :
    (c.frameTaken bs).replays h = c.replays h := by
  unfold PortCtl.replays; rw [PortCtl.frameTaken_cache]

/-! ### The port that serves a request -/

@[simp] theorem Session.reloaded_isOpen (x : Session) : x.reloaded.isOpen = x.isOpen := by
  unfold Session.reloaded; split <;> rfl

@[simp] theorem Session.reloaded_window (x : Session) : x.reloaded.window = x.window := by
  unfold Session.reloaded; split <;> rfl

@[simp] theorem Session.reloaded_lastEnd (x : Session) : x.reloaded.lastEnd = x.lastEnd := by
  unfold Session.reloaded; split <;> rfl

/-- A closed session is left as it is by an accepted frame. -/
theorem Session.reloaded_closed {x : Session} (h : x.isOpen = false) : x.reloaded = x := by
  simp [Session.reloaded, h]

@[simp] theorem PortCtl.serving_session (c : PortCtl) (h : Header) (body : List Byte) :
    (c.serving h body).session = c.session.reloaded := by
  simp [PortCtl.serving, PortCtl.takenIn]

@[simp] theorem PortCtl.serving_service (c : PortCtl) (h : Header) (body : List Byte) :
    (c.serving h body).service = some ⟨h, body, none⟩ := rfl

@[simp] theorem PortCtl.serving_delivery (c : PortCtl) (h : Header) (body : List Byte) :
    (c.serving h body).delivery = c.delivery := by
  simp [PortCtl.serving, PortCtl.takenIn]

@[simp] theorem PortCtl.serving_staging (c : PortCtl) (h : Header) (body : List Byte) :
    (c.serving h body).staging = c.staging := by
  simp [PortCtl.serving, PortCtl.takenIn]

@[simp] theorem PortCtl.serving_cache (c : PortCtl) (h : Header) (body : List Byte) :
    (c.serving h body).cache = c.cache := by
  simp [PortCtl.serving, PortCtl.takenIn]

@[simp] theorem PortCtl.serving_tx (c : PortCtl) (h : Header) (body : List Byte) :
    (c.serving h body).tx = c.tx := by
  simp [PortCtl.serving, PortCtl.takenIn]

@[simp] theorem PortCtl.serving_rx (c : PortCtl) (h : Header) (body : List Byte) :
    (c.serving h body).rx = .hunt := by
  simp [PortCtl.serving, PortCtl.takenIn]

@[simp] theorem PortCtl.serving_rdy (c : PortCtl) (h : Header) (body : List Byte) :
    (c.serving h body).rdy = c.rdy := by
  simp [PortCtl.serving, PortCtl.takenIn]

@[simp] theorem PortCtl.serving_awaitMark (c : PortCtl) (h : Header) (body : List Byte) :
    (c.serving h body).awaitMark = c.awaitMark := by
  simp [PortCtl.serving, PortCtl.takenIn]

/-- A response to the request in service is put beside it. -/
@[simp] theorem PortCtl.serving_respond (c : PortCtl) (h : Header) (body r : List Byte) :
    (c.serving h body).respond r =
      { c.serving h body with service := some ⟨h, body, some ⟨r, false⟩⟩ } := rfl

/-! ### The outcomes of `serve` -/

/-- Everything taking a request into service can do: nothing while the port takes no characters, a
LENGTH error, an overrun, a replay, one of the two refusals, or the owning block's act. -/
theorem serve_cases (p : Port) (h : Header) (body : List Byte) (lengthOk gated : Bool)
    (act : State → State) (s : State) :
    (s.listening p = false ∧ serve p h body lengthOk gated act s = s) ∨
    (s.listening p = true ∧ Config.bodyRoom < body.length ∧
      serve p h body lengthOk gated act s = s.onPort p PortCtl.lengthError) ∨
    (s.hears p body ∧ (s.port p).service.isSome = true ∧
      serve p h body lengthOk gated act s = s.onPort p fun c =>
        { c.frameTaken (frameBytes .request h body) with lastError := .overrun }) ∨
    (s.hears p body ∧ (s.port p).service = none ∧ ∃ cached, (s.port p).replays h = some cached ∧
      serve p h body lengthOk gated act s = s.onPort p fun c =>
        { c.serving h body with service := some ⟨h, body, some ⟨cached, true⟩⟩ }) ∨
    (s.takes p h body ∧ lengthOk = false ∧
      serve p h body lengthOk gated act s = s.answered p h body [0x0D]) ∨
    (s.takes p h body ∧ lengthOk = true ∧ gated = true ∧ (s.port p).session.isOpen = false ∧
      serve p h body lengthOk gated act s = s.answered p h body [0x02]) ∨
    (s.takes p h body ∧ lengthOk = true ∧ (gated = true → (s.port p).session.isOpen = true) ∧
      serve p h body lengthOk gated act s = act (s.serving p h body)) := by
  unfold serve
  cases hl : s.listening p
  · simp
  · by_cases hb : body.length ≤ Config.bodyRoom
    · cases hs : (s.port p).service with
      | some v => simp [bodyFits, hb, hs, State.onPort, State.hears, hl]
      | none =>
        cases hr : (s.port p).replays h with
        | some cached =>
          simp [bodyFits, hb, hs, hr, State.onPort, State.hears, hl, PortCtl.serving, PortCtl.takenIn]
        | none =>
          have ht : s.takes p h body := ⟨⟨hl, hb⟩, hs, hr⟩
          have he : (s.onPort p fun _ => ((s.port p).frameTaken (frameBytes .request h body)).takenIn h
              body none) = s.serving p h body := rfl
          have hk : bodyFits body = true := by simpa [bodyFits] using hb
          iterate 4 right
          cases lengthOk with
          | false => exact .inl ⟨ht, rfl, by simp [hk, hs, hr, he, refusal, Status.code, State.answered]⟩
          | true =>
            right
            by_cases hg : gated = true ∧ (s.port p).session.isOpen = false
            · exact .inl ⟨ht, rfl, hg.1, hg.2, by
                simp [hk, hs, hr, he, hg.1, hg.2, refusal, Status.code, State.answered]⟩
            · refine .inr ⟨ht, rfl, fun g => by simpa [g] using hg, ?_⟩
              simp only [not_and, Bool.not_eq_false] at hg
              simp [hk, hs, hr, he]
              exact fun g e => absurd (hg g) (by simp [e])
    · have hb' : Config.bodyRoom < body.length := Nat.lt_of_not_le hb
      simp [bodyFits, hb, hb']

/-- A new request of a suitable length that passes the session gate reaches its owning block. -/
theorem serve_of_takes {p : Port} {h : Header} {body : List Byte} {lengthOk gated : Bool}
    {act : State → State} {s : State} (ht : s.takes p h body) (hl : lengthOk = true)
    (hg : gated = true → (s.port p).session.isOpen = true) :
    serve p h body lengthOk gated act s = act (s.serving p h body) := by
  obtain ⟨⟨h1, h2⟩, h3, h4⟩ := ht
  rcases serve_cases p h body lengthOk gated act s with c | c | c | c | c | c | c
  · simp [h1] at c
  · exact absurd h2 (Nat.not_le_of_lt c.2.1)
  · simp [h3] at c
  · obtain ⟨-, -, k, hk, -⟩ := c
    simp [h4] at hk
  · simp [hl] at c
  · simp [hg c.2.2.1] at c
  · exact c.2.2.2

/-- A new request of an unsuitable length is refused BAD_LENGTH. -/
theorem serve_badLength {p : Port} {h : Header} {body : List Byte} {lengthOk gated : Bool}
    {act : State → State} {s : State} (ht : s.takes p h body) (hl : lengthOk = false) :
    serve p h body lengthOk gated act s = s.answered p h body [0x0D] := by
  obtain ⟨⟨h1, h2⟩, h3, h4⟩ := ht
  rcases serve_cases p h body lengthOk gated act s with c | c | c | c | c | c | c
  · simp [h1] at c
  · exact absurd h2 (Nat.not_le_of_lt c.2.1)
  · simp [h3] at c
  · obtain ⟨-, -, k, hk, -⟩ := c
    simp [h4] at hk
  · exact c.2.2
  · simp [hl] at c
  · simp [hl] at c

/-- A new request that needs a session is refused NO_SESSION without one. -/
theorem serve_noSession {p : Port} {h : Header} {body : List Byte} {lengthOk gated : Bool}
    {act : State → State} {s : State} (ht : s.takes p h body) (hl : lengthOk = true)
    (hg : gated = true) (ho : (s.port p).session.isOpen = false) :
    serve p h body lengthOk gated act s = s.answered p h body [0x02] := by
  obtain ⟨⟨h1, h2⟩, h3, h4⟩ := ht
  rcases serve_cases p h body lengthOk gated act s with c | c | c | c | c | c | c
  · simp [h1] at c
  · exact absurd h2 (Nat.not_le_of_lt c.2.1)
  · simp [h3] at c
  · obtain ⟨-, -, k, hk, -⟩ := c
    simp [h4] at hk
  · simp [hl] at c
  · exact c.2.2.2.2
  · simp [hg, ho] at c

/-- A request finds another in service, whatever its length. -/
theorem serve_overrun {p : Port} {h : Header} {body : List Byte} {lengthOk gated : Bool}
    {act : State → State} {s : State} (hh : s.hears p body) (hs : (s.port p).service.isSome = true) :
    serve p h body lengthOk gated act s = s.onPort p fun c =>
      { c.frameTaken (frameBytes .request h body) with lastError := .overrun } := by
  rcases serve_cases p h body lengthOk gated act s with c | c | c | c | c | c | c
  · simp [hh.1] at c
  · exact absurd hh.2 (Nat.not_le_of_lt c.2.1)
  · exact c.2.2
  · simp [c.2.1] at hs
  all_goals
    have := c.1.2.1
    simp [this] at hs

/-! ### The phases of a request (R148, R165) -/

@[simp] theorem request_whole (p : Port) (h : Header) (body : List Byte) (lengthOk gated : Bool)
    (act : State → State) (s : State) :
    request .whole p h body lengthOk gated act s = serve p h body lengthOk gated act s := rfl

@[simp] theorem request_accepted (p : Port) (h : Header) (body : List Byte) (lengthOk gated : Bool)
    (act : State → State) (s : State) :
    request .accepted p h body lengthOk gated act s = serve p h body lengthOk gated id s := rfl

/-- Handing a request on changes nothing, or is its owning block's act on a state in which it waits. -/
theorem request_handedOn_cases (p : Port) (h : Header) (body : List Byte) (lengthOk gated : Bool)
    (act : State → State) (s : State) :
    request .handedOn p h body lengthOk gated act s = s ∨
    (s.standby.running = true ∧ s.waits p h body = true ∧ lengthOk = true ∧
      (gated = true → (s.port p).session.isOpen = true) ∧
      request .handedOn p h body lengthOk gated act s = act s) := by
  unfold request
  dsimp only
  split
  · rename_i hc
    simp only [Bool.and_eq_true, Bool.or_eq_true, Bool.not_eq_true'] at hc
    refine .inr ⟨hc.1.1.1, hc.1.1.2, hc.1.2, fun g => ?_, rfl⟩
    rcases hc.2 with e | e
    · simp [g] at e
    · exact e
  · exact .inl rfl

/-- With no such request waiting, handing it on changes nothing. -/
theorem request_handedOn_none {p : Port} {h : Header} {body : List Byte} {lengthOk gated : Bool}
    {act : State → State} {s : State} (hw : s.standby.running = false ∨ s.waits p h body = false) :
    request .handedOn p h body lengthOk gated act s = s := by
  rcases request_handedOn_cases p h body lengthOk gated act s with e | ⟨h1, h2, -⟩
  · exact e
  · simp [h1, h2] at hw

theorem request_congr {f : Phase} {p : Port} {h : Header} {body : List Byte} {l l' gated : Bool}
    {act : State → State} {s : State} (e : l = l') :
    request f p h body l gated act s = request f p h body l' gated act s := by rw [e]

/-- Every request command is `request` with the parts that `Instr.request` names, around the act of
its owning block, in each of its phases. -/
theorem exec_inPhase (i : Instr) (r : RequestForm) (hi : i.request = some r) :
    ∃ act, ∀ (f : Phase) (s : State), exec (i.inPhase f) s =
      .next (request f r.port r.header r.body r.lengthOk r.gated act s) := by
  cases i <;> simp only [Instr.request, Option.some.injEq, reduceCtorEq] at hi <;> subst hi <;>
    exact ⟨_, fun f s =>
      congrArg Host.Outcome.next (request_congr (by first | rfl | simp [Nat.lt_succ_iff]))⟩

/-- A request command is itself in its own phase. -/
theorem inPhase_self (i : Instr) (r : RequestForm) (hi : i.request = some r) :
    i.inPhase r.phase = i := by
  cases i <;> simp only [Instr.request, Option.some.injEq, reduceCtorEq] at hi <;> subst hi <;> rfl

/-- A request command is `request` in its own phase. -/
theorem exec_request (i : Instr) (r : RequestForm) (hi : i.request = some r) :
    ∃ act, ∀ s : State, exec i s =
      .next (request r.phase r.port r.header r.body r.lengthOk r.gated act s) := by
  obtain ⟨act, h⟩ := exec_inPhase i r hi
  exact ⟨act, fun s => by rw [← h, inPhase_self i r hi]⟩

/-- A predicate that every change of one port's controller keeps, and that the owning block's act keeps,
is kept by taking a request into service. -/
theorem serve_keeps {P : State → Prop} {p : Port} {h : Header} {body : List Byte}
    {lengthOk gated : Bool} {act : State → State} {s : State}
    (hport : ∀ (t : State) (f : PortCtl → PortCtl), P t → P (t.onPort p f))
    (hact : ∀ t, P t → P (act t)) (hs : P s) : P (serve p h body lengthOk gated act s) := by
  rcases serve_cases p h body lengthOk gated act s with
    ⟨-, e⟩ | ⟨-, -, e⟩ | ⟨-, -, e⟩ | ⟨-, -, k, -, e⟩ | ⟨-, -, e⟩ | ⟨-, -, -, -, e⟩ | ⟨-, -, -, e⟩ <;> rw [e]
  · exact hs
  · exact hport _ _ hs
  · exact hport _ _ hs
  · exact hport _ _ hs
  · exact hport (s.serving p h body) (fun c => c.respond [0x0D]) (hport _ _ hs)
  · exact hport (s.serving p h body) (fun c => c.respond [0x02]) (hport _ _ hs)
  · exact hact _ (hport _ _ hs)

/-- A predicate that every change of one port's controller keeps, and that the owning block's act
keeps, is kept by a request command in every phase. -/
theorem request_keeps {P : State → Prop} {f : Phase} {p : Port} {h : Header} {body : List Byte}
    {lengthOk gated : Bool} {act : State → State} {s : State}
    (hport : ∀ (t : State) (g : PortCtl → PortCtl), P t → P (t.onPort p g))
    (hact : ∀ t, P t → P (act t)) (hs : P s) : P (request f p h body lengthOk gated act s) := by
  cases f with
  | whole => exact serve_keeps hport hact hs
  | accepted => exact serve_keeps hport (fun _ ht => ht) hs
  | handedOn =>
    rcases request_handedOn_cases p h body lengthOk gated act s with e | ⟨-, -, -, -, e⟩ <;> rw [e]
    · exact hs
    · exact hact s hs

/-! ### The lease gate -/

/-- Taking a lease-end claim does not look at those behind it. -/
theorem State.takeLeaseEnd_leaseEnds (s : State) (rest : List LeaseEndMsg) (m : LeaseEndMsg) :
    ({ s with transit := { s.transit with leaseEnds := rest } } : State).takeLeaseEnd m =
      { s.takeLeaseEnd m with transit := { (s.takeLeaseEnd m).transit with leaseEnds := rest } } := by
  unfold State.takeLeaseEnd
  cases h : s.time.slot <;> simp [h] <;> rfl

/-- The session-end claims of a port leave everything but the lease and what is on its way. -/
theorem State.settleSessionEnds_frame (s : State) (p : Port) :
    s.settleSessionEnds p = { s with
      lease := (s.settleSessionEnds p).lease, transit := (s.settleSessionEnds p).transit } := by
  unfold State.settleSessionEnds
  split
  · unfold State.takeSessionEnd
    split
    · unfold State.endLease
      split <;> rfl
    · rfl
  · rfl

/-- The lease-end claims leave everything but the commit slot and what is on its way. -/
theorem State.takeLeaseEnd_frame (s : State) (m : LeaseEndMsg) :
    s.takeLeaseEnd m = { s with
      time := { s.time with slot := .empty }, transit := (s.takeLeaseEnd m).transit } := by
  obtain ⟨pending, osc, ⟨instant, valid, slew, slot⟩, _⟩ := s
  cases slot <;> rfl

/-- A request that needs the lease is carried out for the holder. -/
theorem leaseGate_of_holder {p : Port} {h : Header} {body : List Byte} {act : State → State} {s : State}
    (hh : (s.atLeaseUnit p h body).lease.holder = some p) :
    leaseGate p act (s.serving p h body) = act (s.atLeaseUnit p h body) := by
  show (if _ then _ else _) = _
  rw [if_pos (show ((s.serving p h body).settleSessionEnds p).lease.holder = some p from hh)]
  rfl

/-- A request that needs the lease is refused NO_LEASE to every other port. -/
theorem leaseGate_of_not_holder {p : Port} {h : Header} {body : List Byte} {act : State → State}
    {s : State} (hh : (s.atLeaseUnit p h body).lease.holder ≠ some p) :
    leaseGate p act (s.serving p h body) = (s.atLeaseUnit p h body).respond p [0x04] := by
  show (if _ then _ else _) = _
  rw [if_neg (show ¬((s.serving p h body).settleSessionEnds p).lease.holder = some p from hh)]
  rfl

/-- A request that passes the gate meets the Timebase behind the lease-end claims. -/
theorem throughGate_of_holder {p : Port} {h : Header} {body : List Byte} {act : State → State}
    {s : State} (hh : (s.atLeaseUnit p h body).lease.holder = some p) :
    throughGate p act (s.serving p h body) = act (s.atTimebase p h body) := leaseGate_of_holder hh

/-- The gate of a request for the Timebase refuses every port but the holder. -/
theorem throughGate_of_not_holder {p : Port} {h : Header} {body : List Byte} {act : State → State}
    {s : State} (hh : (s.atLeaseUnit p h body).lease.holder ≠ some p) :
    throughGate p act (s.serving p h body) = (s.atLeaseUnit p h body).respond p [0x04] :=
  leaseGate_of_not_holder hh

/-! ### Entry requests -/

/-- An entry request in RESCAN mode is refused BUSY. -/
theorem whenNormal_of_rescan {p : Port} {act : State → State} {s : State} (hm : s.table.mode ≠ .normal) :
    whenNormal p act s = s.respond p [0x01] := by
  unfold whenNormal
  rw [if_neg (by simpa [State.tableNormal] using hm)]
  rfl

/-- An entry request in NORMAL mode goes on. -/
theorem whenNormal_of_normal {p : Port} {act : State → State} {s : State} (hm : s.table.mode = .normal) :
    whenNormal p act s = act s := by
  unfold whenNormal
  rw [if_pos (by simpa [State.tableNormal] using hm)]

/-- The two characters of a handle are read back as the handle. -/
theorem handleAt_handle (code : Byte) (n : Handle) (more : List Byte) :
    handleAt (code :: byteOf n.slot.val :: byteOf n.gen.val :: more) 1 = some n := by
  obtain ⟨⟨i, hi⟩, ⟨g, hg⟩⟩ := n
  have h1 : i % 256 = i := Nat.mod_eq_of_lt (by omega)
  have h2 : g % 256 = g := Nat.mod_eq_of_lt (by omega)
  simp [handleAt, byteAt, byteOf, h1, h2, hi, hg]

/-- A request with a current handle reaches its act. -/
theorem withCurrent_of_current {p : Port} {body : List Byte} {act : Handle → Entry → State → State}
    {s : State} {n : Handle} {e : Entry} (hn : handleAt body 1 = some n) (he : s.current n = some e) :
    withCurrent p body act s = act n e s := by
  simp [withCurrent, hn, he]

/-- A request whose handle is not current is refused BAD_HANDLE. -/
theorem withCurrent_of_bad {p : Port} {body : List Byte} {act : Handle → Entry → State → State}
    {s : State} (hn : (handleAt body 1).bind s.current = none) :
    withCurrent p body act s = s.respond p [0x09] := by
  unfold withCurrent
  cases h : handleAt body 1 with
  | none => rfl
  | some n =>
    rw [h] at hn
    simp only [Option.bind_some] at hn
    simp [hn, refusal, Status.code]

end Sys2Proof.Machine
end

