-- ==== Sys2Proof/Tests/Slice0.lean ====
section
/-! SUPPORT. The tests: the checks of WellFormed, the spec's worked examples, and a witness for each
statement that has hypotheses. -/

namespace Sys2Proof.Tests

open Sys2Proof Sys2Proof.Machine

set_option Elab.async false

/-! ### Small states -/

/-- A header with sequence 0 and the retry flag clear. -/
def h0 : Header := ⟨false, false, 0⟩

/-- A port that hears, with no session. -/
def closedPort : PortCtl := { PortCtl.atReset .none with awaitMark := false }

/-- A port with an OPEN session at the default options. -/
def openPort : PortCtl :=
  { closedPort with
    session := { Session.closed .none with isOpen := true }, delivery := ⟨.ready, 0, 0, none⟩ }

/-- The port domain runs; P0, the supervisor, and P1 have sessions, P2 and P3 have none. -/
def up : State :=
  { State.reset with
    standby := ⟨true, false, .reset, false, false, false, true, ⟨false, 0⟩, ⟨false, 0⟩⟩
    search := ⟨[], .idle⟩
    ports := ⟨openPort, openPort, closedPort, closedPort⟩ }

/-- `up` with the time set to 2031-05-12 10:00:00. -/
def valid : State :=
  { up with time := ⟨(⟨31, 5, 12, 10, 0, 0, 0⟩ : Calendar).toCount, true, .idle, .empty⟩ }

/-- `valid` with the Set Lease held by P0. -/
def leased : State := { valid with lease := ⟨some .p0, 5⟩ }

/-- A state with an entry in slot 0, whose generation is 3. -/
def withEntry (s : State) (e : Entry) : State := s.setSlot 0 ⟨3, some e⟩

/-- A ONCE entry of P0 in a state. -/
def once (st : EntryState) : Entry :=
  ⟨st, .p0, .once (.absolute 5) .absolute, 1, some 1, 0, 16, PortSet.single .p1, .release, true, 7⟩

/-- A PERIODIC entry of P0 with period 64 in a state. -/
def periodic (st : EntryState) : Entry :=
  ⟨st, .p0, .periodic (.relative 5) 64 .relative, 5, some 5, 0, 16, PortSet.single .p1, .keep, false, 7⟩

/-- A MATCH entry of P0 in a state: the first second of every minute. -/
def matching (st : EntryState) : Entry :=
  ⟨st, .p0, .calendar ⟨none, none, none, none, none, some 0⟩, 0, none, 0, 16, PortSet.single .p1,
    .keep, false, 7⟩

/-- The next state of an outcome. -/
def after (o : Host.Outcome State Fault Refusal) : State :=
  match o with
  | .next s => s
  | _ => State.reset

/-! ### WellFormed refuses what is ill formed -/

theorem test_wf_request_too_long : (Instr.pingReq .p0 h0 (List.replicate 24 0)).wellFormed = false := by decide

theorem test_wf_request_longest : (Instr.pingReq .p0 h0 (List.replicate 23 0)).wellFormed = true := by decide

theorem test_wf_unknown_defined_code : (Instr.unknownRequest .p0 h0 [0x10]).wellFormed = false := by decide

theorem test_wf_unknown_empty_body : (Instr.unknownRequest .p0 h0 []).wellFormed = true := by decide

theorem test_wf_overrun_too_long : (Instr.overrun .p0 h0 (List.replicate 25 0)).wellFormed = false := by decide

theorem test_wf_ack_too_long : (Instr.ack .p0 h0 (List.replicate 25 0)).wellFormed = false := by decide

theorem test_wf_unused_too_long :
    (Instr.unusedFrame .p0 .notice h0 (List.replicate 25 0)).wellFormed = false := by decide

theorem test_wf_no_characters : (Instr.receiveError .p0 []).wellFormed = false := by decide

/-! ### The spec's worked examples -/

/-- Conversion Example of 01_the_timebase.md: count, weekday and week number of 2024-03-01 12:00:00.128. -/
theorem test_conversion :
    let c : Calendar := ⟨24, 3, 1, 12, 0, 0, 128⟩
    c.toCount = 195228057728 ∧ c.weekday = 5 ∧ c.weekNumber = 9 := by decide +kernel

/-- Carry Examples of 01_the_timebase.md, the gained advances. -/
theorem test_carry_gained :
    (⟨24, 2, 29, 23, 59, 59, 254⟩ : Calendar).advance 2 = ⟨24, 3, 1, 0, 0, 0, 0⟩ ∧
    (⟨24, 12, 31, 23, 59, 59, 255⟩ : Calendar).advance 2 = ⟨25, 1, 1, 0, 0, 0, 1⟩ := by decide +kernel

/-- R11: 2012-12-31 and 2024-12-30 are in week 53, and 2000-01-01 is weekday 6 (R10). -/
theorem test_week_53 :
    (⟨12, 12, 31, 0, 0, 0, 0⟩ : Calendar).weekNumber = 53 ∧
    (⟨24, 12, 30, 0, 0, 0, 0⟩ : Calendar).weekNumber = 53 ∧
    (⟨0, 1, 1, 0, 0, 0, 0⟩ : Calendar).weekday = 6 := by decide +kernel

/-- Trim Example of 01_the_timebase.md: the second window start copies −5 and raises 37 to 42. -/
theorem test_trim_window_start :
    let s := { up with osc := { up.osc with residue := 37, trim := 3, pendingTrim := -5 } }
    let t := after (exec .trimWindowStart s)
    t.osc.trim = -5 ∧ t.osc.residue = 42 ∧ t.transit.marks.advances = 0 := by decide +kernel

/-- R4: the ticks of a group end at 8,192 cycles, and the fourth is 327 cycles long. -/
theorem test_tick_group :
    tickEnds.getLast? = some 8192 ∧ tickEnds.length = 25 ∧ tickEnds[3]? = some (3 * 328 + 327) := by
  decide +kernel

/-- Slot and Quota Example of 02_schedule_entries.md: a CREATE takes the lowest FREE slot, 5/3. -/
theorem test_create_lowest_slot :
    let s := (up.setSlot 5 ⟨3, none⟩)
    let s := [0, 1, 2, 3, 4].foldl (fun (s : State) i => s.setSlot i ⟨0, some (once .held)⟩) s
    let t := after (exec (.create .p1 h0 [0, 1, 0, 0, 1, 64, 0, 1, 0, 0, 2, 0, 0, 0, 9]) s)
    ((t.port .p1).service.bind (·.response)).map (·.body) = some [0, 5, 3] := by decide +kernel

/-- The same example: a DELETE advances the generation of its slot. -/
theorem test_delete_generation :
    ((after (exec (.delete .p0 h0 [0, 3]) (withEntry up (once .held)))).slot 0) = ⟨4, none⟩ := by
  decide +kernel

/-- The late firing at RESUME of 03_the_due_list_and_firing.md: k 3, lateness 164, MISSED, final. -/
theorem test_late_firing :
    let c := firingClaimFor ⟨0, 0⟩ { periodic (.armed 192) with remaining := some 2 } 356 none 192
    c.occurrences = 3 ∧ c.lateness = 164 ∧ c.missed = true ∧ c.isFinal = true := by decide +kernel

/-- R22: a second claim for one due that uses up what the first has left ends the entry; a claim that was
to end it leaves it ARMED where an ARM has set remaining again. -/
theorem test_firing_by_remaining :
    let fire (left : Nat) (atLook : Nat) : Option (EntryState × Option Nat) :=
      let e := { periodic (.armed 192) with remaining := some left }
      let c := firingClaimFor ⟨0, 3⟩ { e with remaining := some atLook } 256 none 192
      let s := { withEntry up e with transit := { Transit.empty with firings := [⟨4, c⟩] } }
      ((after (exec .firingClaim s)).entry 0).map fun e => (e.state, e.remaining)
    fire 2 4 = some (.spent .countDone, some 0) ∧ fire 5 2 = some (.armed 320, some 3) ∧
      fire 4 4 = some (.armed 320, some 2) := by decide +kernel

/-- A FORWARD STEP of 08_step_processing.md: slot 1 fires five occurrences, MISSED above 1,000. -/
theorem test_late_periodic :
    let e : Entry := { periodic (.armed 0) with
      plan := .periodic (.absolute 0) 5120 .absolute, repeatLimit := 0, remaining := none, tolerance := 1000 }
    let c := firingClaimFor ⟨1, 0⟩ e 23040 none 0
    c.occurrences = 5 ∧ c.missed = true ∧ c.next = .armed 25600 := by decide +kernel

/-- The second row of Search Examples in 04_the_match_search.md: the next Friday the 13th. -/
theorem test_search_friday_13 :
    searchResult ⟨none, some 13, some 5, some 9, some 0, some 0⟩
        (.second (⟨31, 5, 12, 10, 0, 0, 0⟩ : Calendar).toCount)
      = some (⟨31, 6, 13, 9, 0, 0, 0⟩ : Calendar).toCount := by decide +kernel

/-- The first row of Search Examples: every field ANY gives the reference itself. -/
theorem test_search_any :
    searchResult ⟨none, none, none, none, none, none⟩ (.second 256) = some 256 := by decide +kernel

/-- Loss Example of 05_notice_queues_and_delivery.md: a full queue loses, and the next record says so. -/
theorem test_loss :
    let n : Content := .firing false ⟨6, 0⟩ 0 0 1 0 false
    let full : NoticeQueue := ⟨[], List.replicate 16 ⟨.slewDone, false⟩, false⟩
    let lost := full.placeNotice n
    let room : NoticeQueue := { lost with unsent := lost.unsent.drop 1 }
    lost.loss = true ∧ (room.placeNotice n).loss = false ∧
      (room.placeNotice n).unsent.getLast? = some ⟨n, true⟩ := by decide +kernel

/-- The FIRE notice of 12_frame_and_request_formats.md, up to its CRC characters. -/
theorem test_fire_notice_frame :
    let due := (⟨31, 5, 12, 8, 0, 1, 0⟩ : Calendar).toCount
    let r : Record := ⟨.firing false ⟨0, 0⟩ 0x12345678 due 1 0 false, false⟩
    (noticeFrame r 0 false).take 20 =
        [0x40, 0x12, 0x01, 0x00, 0, 0, 0x12, 0x34, 0x56, 0x78, 0x1F, 0x05, 0x0C, 0x08, 0, 1, 0, 1, 0, 0] ∧
      (noticeFrame r 0 false).length = 22 := by decide +kernel

/-- Slew Example of 07_setting_the_time.md: R goes from +3 to IDLE in 192 advances, 3 TU further. -/
theorem test_slew_three :
    let one (x : Slew × Nat) : Slew × Nat := (x.1.advance.slew, x.2 + x.1.advance.amount)
    Nat.repeat one 192 (.active 3 0, 0) = (.idle, 195) ∧ Nat.repeat one 64 (.active 3 0, 0) = (.active 2 0, 65) := by
  decide +kernel

/-- R113: a COMMIT_TIME from the holder with no field staged is refused INCOMPLETE. -/
theorem test_commit_incomplete :
    (((after (exec (.commitTime .p0 h0 [0]) leased)).port .p0).service.bind (·.response)).map (·.body)
      = some [0x0B] := by decide +kernel

/-- R104: another port's ACQUIRE is refused LEASE_HELD with the holder. -/
theorem test_acquire_held :
    (((after (exec (.acquire .p1 h0 [9]) leased)).port .p1).service.bind (·.response)).map (·.body)
      = some [0x05, 0] := by decide +kernel

/-- R176: RST under a running domain records RESET and leaves the standby flag clear. -/
theorem test_rst_holds :
    let t := after (exec (.rst true noStraps) leased)
    t.standby.running = false ∧ t.standby.cause = .reset ∧ t.standby.flag = false ∧ t.lease = ⟨none, 0⟩ := by
  decide +kernel

/-! ### Witnesses: states and operands that meet the hypotheses of the statements

Each theorem is named after its statement and takes its clauses in their order, at boundary values. -/

/-- A state in which much goes on: an ARMED entry in slot 0, a SEARCHING one in slot 1 whose search runs, a
slew and a pending commit of P0, which holds the lease, and notices in flight and unsent. -/
def busy : State :=
  { (withEntry up (once (.armed 1100))).setSlot 1 ⟨0, some (matching .searching)⟩ with
    time := ⟨1000, true, .active 3 5, .pending 2560 .p0⟩
    lease := ⟨some .p0, 5⟩
    dueList := [⟨1100, 0⟩]
    search := ⟨[⟨1, 0, .second 1024⟩], .running 1 .searching⟩
    pending := [.tuAdvance]
    queues := up.queues.set .p0
      ⟨[⟨⟨.slewDone, false⟩, 0, false⟩], [⟨.firing false ⟨0, 3⟩ 7 900 1 0 true, false⟩], false⟩
    ports := up.ports.set .p0 { openPort with delivery := ⟨.ready, 1, 0, some 4⟩ } }

theorem busy_entry : ∀ i, busy.entry i =
    if i = 0 then some (once (.armed 1100)) else if i = 1 then some (matching .searching) else none := by
  decide +kernel

theorem busy_step : step busy = .next (takeAdvance (countAdvance { busy with pending := [] })) := rfl

theorem witness_EveryStepAnswersNext :
    (State.reset.pending = [] ∧ nextInternal State.reset = none) ∧
    let s := { State.reset with transit := { Transit.empty with wakes := 1 } }
    s.pending = [] ∧ nextInternal s = some .wakeRequest := by decide +kernel

theorem witness_TimebaseLawsKept :
    (PrescalerInRange busy ∧ TimebaseLaw busy) ∧ ∃ t, step busy = .next t := by
  refine ⟨⟨⟨?_, ?_, ?_, ?_, ?_, ?_, ?_⟩, ⟨?_, ?_, ?_, ?_⟩⟩, ⟨_, busy_step⟩⟩
  all_goals first | decide +kernel | (show _ ∧ _; decide +kernel)

theorem busy_dueList : DueListLaw busy := by
  refine ⟨by decide +kernel, fun i due => ?_⟩
  unfold State.armedAt
  rw [busy_entry]
  rw [show busy.dueList = [⟨1100, 0⟩] from rfl]
  by_cases h0 : i = 0
  · subst h0
    simp [once, eq_comm]
  · by_cases h1 : i = 1
    · subst h1
      simp [matching]
    · simp [h0, h1]

theorem witness_DueListLawKept : DueListLaw busy ∧ ∃ t, step busy = .next t :=
  ⟨busy_dueList, ⟨_, busy_step⟩⟩

theorem busy_searchQueue : SearchQueueLaw busy := by
  refine ⟨by decide +kernel, fun i => ?_, by decide +kernel⟩
  unfold State.searchingAt
  rw [busy_entry]
  rw [show busy.search.jobs = [⟨1, 0, .second 1024⟩] from rfl]
  by_cases h0 : i = 0
  · subst h0
    simp [once]
  · by_cases h1 : i = 1
    · subst h1
      simp [matching]
    · simp [h0, h1, eq_comm]

theorem witness_SearchLawsKept :
    (SearchQueueLaw busy ∧ EngineLaw busy) ∧ ∃ t, step busy = .next t :=
  ⟨⟨busy_searchQueue, by show _ ∧ _; decide +kernel⟩, ⟨_, busy_step⟩⟩

theorem witness_QuotaLawKept : QuotaLaw busy ∧ ∃ t, step busy = .next t :=
  ⟨⟨fun p => by cases p <;> decide +kernel, by decide +kernel⟩, ⟨_, busy_step⟩⟩

theorem witness_EntryTimesLawsKept :
    (DuesInEpoch busy ∧ ValidLaw busy) ∧ ∃ t, step busy = .next t := by
  refine ⟨⟨⟨fun i e h => ?_, fun m h => (List.not_mem_nil h).elim, fun m h => (List.not_mem_nil h).elim⟩,
    fun h => Bool.noConfusion h⟩, ⟨_, busy_step⟩⟩
  rw [busy_entry] at h
  split at h
  · cases h
    exact ⟨by show 1100 ≤ _; decide, by show 5 ≤ _; decide⟩
  · split at h
    · cases h
      exact ⟨trivial, trivial⟩
    · cases h

theorem witness_EntryTimesLawsKept_counts : CountsLaw busy ∧ ∃ t, step busy = .next t := by
  refine ⟨⟨fun i e h => ?_, fun m h => (List.not_mem_nil h).elim⟩, ⟨_, busy_step⟩⟩
  rw [busy_entry] at h
  split at h
  · cases h
    exact ⟨fun _ _ _ => rfl, by simp [once], fun _ => ⟨1, rfl, by simp [once], by simp [once]⟩, by simp [once]⟩
  · split at h
    · cases h
      exact ⟨by simp [matching], fun _ => by simp [matching], by simp [matching], by simp [matching]⟩
    · cases h

theorem witness_StepLawKept : StepLaw busy ∧ ∃ t, step busy = .next t :=
  ⟨⟨by decide +kernel, by decide +kernel, by decide +kernel, by decide +kernel⟩, ⟨_, busy_step⟩⟩

theorem witness_CoalescingLawKept : CoalescingLaw busy ∧ ∃ t, step busy = .next t :=
  ⟨fun p => by cases p <;> decide +kernel, ⟨_, busy_step⟩⟩

theorem busy_hold : HoldLaw busy := by
  refine ⟨(fun h => nomatch h), (fun h => nomatch h), ?_, ?_, ?_⟩ <;> decide +kernel

theorem witness_PortLawsKept :
    (HoldLaw busy ∧ SessionLaw busy ∧ DeliveryLaw busy ∧ QueueLaw busy) ∧
      ∃ t, step busy = .next t := by
  refine ⟨⟨busy_hold, ⟨?_, ?_⟩, ⟨?_, ?_, ?_, ?_, ?_⟩, ⟨?_, ?_, ?_⟩⟩, ⟨_, busy_step⟩⟩
  all_goals intro p; cases p <;> decide +kernel

theorem witness_LeaseLawKept :
    (HoldLaw busy ∧ LeaseLaw busy) ∧ ∃ t, step busy = .next t := by
  refine ⟨⟨busy_hold, ⟨?_, by decide +kernel, by decide +kernel, ?_⟩⟩, ⟨_, busy_step⟩⟩
  · intro p; cases p <;> decide +kernel
  · intro second p h
    cases h
    exact .inl rfl

theorem witness_CalendarRoundTrip :
    (⟨99, 12, 31, 23, 59, 59, 255⟩ : Calendar).isReal = true ∧
    (⟨0, 2, 29, 0, 0, 0, 0⟩ : Calendar).isReal = true ∧
    807874559999 ≤ Config.lastInstant := by decide +kernel

theorem witness_CalendarCarriesFollowCount :
    (1 ≤ 2 ∧ 2 ≤ 2 ∧ 807874559997 + 2 ≤ Config.lastInstant) ∧
    (1 ≤ 1 ∧ 1 ≤ 2 ∧ 0 + 1 ≤ Config.lastInstant) := by decide

theorem witness_CrystalCyclesCounted :
    (let s := { up with osc := ⟨127, 127, 1048575, 0, 0, 0, 8191⟩ };
      s.osc.residue < 128 ∧ s.osc.windowPos < Config.windowCycles ∧
        s.osc.tickPos < Config.tickGroupCycles ∧ s.osc.tickPos + 1 ≤ Config.tickGroupCycles) ∧
    (up.osc.residue < 128 ∧ up.osc.windowPos < Config.windowCycles ∧ up.osc.tickPos = 0 ∧
      up.osc.tickPos + 8192 ≤ Config.tickGroupCycles) := by decide +kernel

theorem witness_TrimWindowStarts :
    (let o : Prescaler := ⟨127, 0, 0, 0, 127, 0, 0⟩;
      0 ≤ o.pendingTrim ∧ o.residue < 128) ∧
    (let o : Prescaler := ⟨126, 0, 0, 0, -1, 0, 0⟩;
      o.pendingTrim < 0 ∧ o.residue + o.pendingTrim.natAbs < 128) ∧
    (let o : Prescaler := ⟨0, 0, 0, 0, -128, 0, 0⟩;
      o.pendingTrim < 0 ∧ 128 ≤ o.residue + o.pendingTrim.natAbs) := by decide

/-- `up` with a Timebase. -/
def timed (t : Timebase) : State := { up with time := t }

theorem timed_law (t : Timebase) (h1 : t.instant ≤ Config.lastInstant) (h2 : SlewLaw t.slew)
    (h3 : CommitSlotLaw t.slot) (h4 : t.valid = false → t.slew = .idle) : TimebaseLaw (timed t) :=
  ⟨h1, h2, h3, h4⟩

/-- Ordinary advances, with the slew one short of its correction and with none. -/
theorem witness_TuAdvanceMovesInstant_ordinary :
    (TimebaseLaw (timed ⟨254, true, .active (-1) 62, .pending 256 .p0⟩) ∧
      254 % 256 < 255 ∧ (62 : Nat) < 63 ∧ up.osc.secondCount < 255) ∧
    TimebaseLaw (timed ⟨255, true, .idle, .empty⟩) ∧ 255 < Config.lastSecond ∧
    ({ up with osc := ⟨0, 0, 0, 0, 0, 255, 0⟩ } : State).osc.secondCount = 255 := by
  refine ⟨⟨timed_law _ ?_ ?_ ?_ ?_, ?_, ?_, ?_⟩, timed_law _ ?_ ?_ ?_ ?_, ?_, ?_⟩
  all_goals first | decide +kernel | trivial

/-- The gained and the held correction. -/
theorem witness_TuAdvanceMovesInstant_corrected :
    (TimebaseLaw (timed ⟨253, true, .active 1 63, .pending 256 .p0⟩) ∧ (0 : Int) < 1 ∧ 253 % 256 < 254) ∧
    (TimebaseLaw (timed ⟨255, true, .active 512 63, .empty⟩) ∧ 255 < Config.lastSecond) ∧
    TimebaseLaw (timed ⟨255, true, .active (-1) 63, .empty⟩) ∧ (-1 : Int) < 0 := by
  refine ⟨⟨timed_law _ ?_ ?_ ?_ ?_, ?_, ?_⟩, ⟨timed_law _ ?_ ?_ ?_ ?_, ?_⟩, timed_law _ ?_ ?_ ?_ ?_, ?_⟩
  all_goals first | decide +kernel | trivial

/-- A second boundary with a commit pending, and the epoch end. -/
theorem witness_TuAdvanceMovesInstant_boundary :
    (TimebaseLaw (timed ⟨255, true, .idle, .pending 256 .p0⟩) ∧ 255 % 256 = 255) ∧
    (TimebaseLaw (timed ⟨254, true, .active 1 63, .pending 256 .p0⟩) ∧ 254 % 256 = 254) ∧
    TimebaseLaw (timed ⟨807874559999, true, .idle, .empty⟩) ∧
    TimebaseLaw (timed ⟨807874559998, true, .active 1 63, .empty⟩) := by
  refine ⟨⟨timed_law _ ?_ ?_ ?_ ?_, ?_⟩, ⟨timed_law _ ?_ ?_ ?_ ?_, ?_⟩, timed_law _ ?_ ?_ ?_ ?_,
    timed_law _ ?_ ?_ ?_ ?_⟩
  all_goals first | decide +kernel | trivial

theorem witness_SlewRunsItsLength :
    ((512 : Int) ≠ 0 ∧ (512 : Int).natAbs ≤ Config.slewLimit) ∧
    ((-512 : Int) ≠ 0 ∧ (-512 : Int).natAbs ≤ Config.slewLimit ∧ 32767 < 64 * (-512 : Int).natAbs) := by
  decide

theorem witness_TimeReadAndStaged :
    up.takes .p3 h0 [0x20] ∧ up.takesOpen .p1 h0 [0x24] ∧
    up.takesOpen .p1 h0 [0x21, 0xFF, 0, 0, 0, 0, 0, 0, 0] := by decide +kernel

/-- `leased` with an instant staged at P0. -/
def staged (y mo d f : Byte) : State :=
  leased.onPort .p0 fun c => { c with
    staging := ⟨some y, some mo, some d, some 10, some 0, some 0, some f⟩ }

/-- `staged` with 512 time units, the greatest offset of a slew, ahead of the instant. -/
def stagedAhead : State :=
  leased.onPort .p0 fun c => { c with
    staging := ⟨some 31, some 5, some 12, some 10, some 0, some 2, some 0⟩ }

theorem witness_CommitRefusedInOrder :
    (leased.takesOpen .p0 h0 [0x22, 3] ∧ (leased.atLeaseUnit .p0 h0 [0x22, 3]).lease.holder = some .p0 ∧
      2 < (3 : Byte).toNat) ∧
    (let s := { leased with table := { leased.table with mode := .rescan ⟨0, 0, 64⟩ } };
      s.takesOpen .p0 h0 [0x22, 2] ∧ (s.atLeaseUnit .p0 h0 [0x22, 2]).lease.holder = some .p0 ∧
        (s.atTimebase .p0 h0 [0x22, 2]).table.mode ≠ .normal) ∧
    (let s := { leased with transit := { Transit.empty with timeClaims := [⟨0, false, .step 0 0⟩] } };
      s.takesOpen .p0 h0 [0x22, 0] ∧ (s.atTimebase .p0 h0 [0x22, 0]).stepOnWay = true) ∧
    (let u := leased.atTimebase .p0 h0 [0x22, 2];
      u.table.mode = .normal ∧ u.stepOnWay = false ∧ (u.port .p0).staging.calendar = none) := by
  decide +kernel

theorem witness_CommitRefusedInOrder_staged :
    (let u := (staged 31 2 29 0).atTimebase .p0 h0 [0x22, 2];
      (staged 31 2 29 0).takesOpen .p0 h0 [0x22, 2] ∧
        (u.port .p0).staging.calendar = some ⟨31, 2, 29, 10, 0, 0, 0⟩ ∧
        (⟨31, 2, 29, 10, 0, 0, 0⟩ : Calendar).isReal = false) ∧
    (let s := { staged 31 5 12 0 with time := ⟨0, false, .idle, .empty⟩ };
      let u := s.atTimebase .p0 h0 [0x22, 2];
      s.takesOpen .p0 h0 [0x22, 2] ∧ (u.port .p0).staging.calendar = some ⟨31, 5, 12, 10, 0, 0, 0⟩ ∧
        (⟨31, 5, 12, 10, 0, 0, 0⟩ : Calendar).isReal = true ∧ u.time.valid = false) ∧
    (let s := { stagedAhead with time := { valid.time with instant := valid.time.instant - 1 } };
      let u := s.atTimebase .p0 h0 [0x22, 2];
      let c : Calendar := ⟨31, 5, 12, 10, 0, 2, 0⟩;
      s.takesOpen .p0 h0 [0x22, 2] ∧ (u.port .p0).staging.calendar = some c ∧ c.isReal = true ∧
        u.time.valid = true ∧ ((c.toCount : Int) - u.time.instant).natAbs = 513) := by
  decide +kernel

theorem witness_CommitTakesEffect :
    (let s := staged 31 5 12 0;
      let u := s.atTimebase .p0 h0 [0x22, 2];
      s.takesOpen .p0 h0 [0x22, 2] ∧ (s.atLeaseUnit .p0 h0 [0x22, 2]).lease.holder = some .p0 ∧
        u.table.mode = .normal ∧ u.stepOnWay = false ∧
        (u.port .p0).staging.calendar = some ⟨31, 5, 12, 10, 0, 0, 0⟩ ∧
        (⟨31, 5, 12, 10, 0, 0, 0⟩ : Calendar).isReal = true ∧ u.time.valid = true ∧
        (((⟨31, 5, 12, 10, 0, 0, 0⟩ : Calendar).toCount : Int) - u.time.instant) = 0) ∧
    (let s := stagedAhead;
      let u := s.atTimebase .p0 h0 [0x22, 2];
      s.takesOpen .p0 h0 [0x22, 2] ∧ (s.atLeaseUnit .p0 h0 [0x22, 2]).lease.holder = some .p0 ∧
        u.table.mode = .normal ∧ u.stepOnWay = false ∧
        (u.port .p0).staging.calendar = some ⟨31, 5, 12, 10, 0, 2, 0⟩ ∧ u.time.valid = true ∧
        (((⟨31, 5, 12, 10, 0, 2, 0⟩ : Calendar).toCount : Int) - u.time.instant) = 512) ∧
    (staged 31 5 12 0).takesOpen .p0 h0 [0x22, 0] ∧ (staged 31 5 12 0).takesOpen .p0 h0 [0x22, 1] := by
  decide +kernel

theorem witness_CancelAndTrim :
    (leased.takesOpen .p0 h0 [0x23] ∧ (leased.atLeaseUnit .p0 h0 [0x23]).lease.holder = some .p0) ∧
    (leased.takesOpen .p0 h0 [0x25, 0xFF, 0x80] ∧
      (leased.atLeaseUnit .p0 h0 [0x25, 0xFF, 0x80]).lease.holder = some .p0) ∧
    ((0xFF : Byte) ++ (0x80 : Byte) : BitVec 16).toInt = -128 ∧
    ((0x00 : Byte) ++ (0x7F : Byte) : BitVec 16).toInt = 127 ∧
    ((0x00 : Byte) ++ (0x80 : Byte) : BitVec 16).toInt = 128 ∧
    ((0xFF : Byte) ++ (0x7F : Byte) : BitVec 16).toInt = -129 := by decide +kernel

/-- Of the gate clauses of CommitRefusedInOrder, CancelAndTrim and RenewReleaseAndBreak. -/
theorem witness_leaseGate :
    ∀ body ∈ ([[0x31, 1], [0x32], [0x22, 0], [0x23], [0x25, 0, 0]] : List (List Byte)),
      leased.takesOpen .p1 h0 body ∧ (leased.atLeaseUnit .p1 h0 body).lease.holder ≠ some .p1 := by
  decide +kernel

theorem witness_AcquireDecided :
    (valid.takesOpen .p1 h0 [0x30, 0]) ∧
    (valid.takesOpen .p1 h0 [0x30, 255] ∧ (valid.atLeaseUnit .p1 h0 [0x30, 255]).lease.holder = none) ∧
    (leased.takesOpen .p0 h0 [0x30, 1] ∧ (leased.atLeaseUnit .p0 h0 [0x30, 1]).lease.holder = some .p0) ∧
    (leased.takesOpen .p1 h0 [0x30, 1] ∧ (leased.atLeaseUnit .p1 h0 [0x30, 1]).lease.holder = some .p0) := by
  decide +kernel

theorem witness_RenewReleaseAndBreak :
    (∀ d ∈ ([0, 1, 255] : List Byte), leased.takesOpen .p0 h0 [0x31, d] ∧
      (leased.atLeaseUnit .p0 h0 [0x31, d]).lease.holder = some .p0) ∧
    (leased.takesOpen .p0 h0 [0x32] ∧ (leased.atLeaseUnit .p0 h0 [0x32]).lease.holder = some .p0) ∧
    (leased.takesOpen .p1 h0 [0x52] ∧ Port.p1 ≠ leased.supervisor) ∧
    (valid.takesOpen .p0 h0 [0x52] ∧ Port.p0 = valid.supervisor ∧
      (valid.atLeaseUnit .p0 h0 [0x52]).lease.holder = none) ∧
    (leased.takesOpen .p0 h0 [0x52] ∧ (leased.atLeaseUnit .p0 h0 [0x52]).lease.holder = some .p0) := by
  decide +kernel

theorem witness_LeaseEndsHandOn :
    (State.reset.standby.running = false ∧ valid.lease.holder = none) ∧
    ({ leased with lease := ⟨some .p0, 0 + 1⟩ } : State).standby.running = true ∧
    ({ leased with lease := ⟨some .p0, 0⟩ } : State).lease = ⟨some .p0, 0⟩ ∧
    (let s := { leased with transit := { Transit.empty with sessionEnds := [.p0, .p1] } };
      Port.p0 ∈ s.transit.sessionEnds ∧ s.lease.holder = some .p0 ∧
        Port.p1 ∈ s.transit.sessionEnds ∧ s.lease.holder ≠ some .p1) ∧
    (let s := { leased with transit := { Transit.empty with leaseEnds := [⟨0, .p1⟩] } };
      s.transit.leaseEnds = [⟨0, .p1⟩] ∧ s.time.slot = .empty) ∧
    busy.time.slot = .pending 2560 .p0 ∧
    (Port.p0 ∉ leased.transit.sessionEnds ∧ leased.transit.leaseEnds = []) ∧
    (let s := { busy with transit := { Transit.empty with leaseEnds := [⟨0, .p1⟩, ⟨3, .p0⟩] } };
      s.transit.leaseEnds ≠ []) := by decide +kernel

theorem witness_PortControllerRefusals :
    (up.takes .p2 h0 [] ∧ codeUndefined [] = true) ∧ (up.takes .p0 h0 [0x54] ∧ codeUndefined [0x54] = true) ∧
    (let i := Instr.pingReq .p0 h0 (List.replicate 17 0);
      i.request = some ⟨.p0, h0, 0x12 :: List.replicate 17 0, false, true, false, .whole⟩ ∧
        up.takes .p0 h0 (0x12 :: List.replicate 17 0)) ∧
    (let i := Instr.pingReq .p2 h0 (List.replicate 16 0);
      i.request = some ⟨.p2, h0, 0x12 :: List.replicate 16 0, true, true, false, .whole⟩ ∧
        up.takes .p2 h0 (0x12 :: List.replicate 16 0) ∧ (up.port .p2).session.isOpen = false) ∧
    (let s := up.onPort .p0 fun c => { c with session := { c.session with keepalive := 1 } };
      (s.port .p0).session.isOpen = true ∧ 0 < (s.port .p0).session.keepalive) ∧
    ((up.port .p0).session.keepalive = 0 ∧ (up.port .p0).rx = .hunt) ∧ Port.p1 ≠ Port.p0 ∧
    (∀ f ∈ [Phase.whole, .accepted], (Instr.acquire .p0 h0 [1] f).request =
        some ⟨.p0, h0, [0x30, 1], true, true, false, f⟩ ∧ up.takes .p0 h0 [0x30, 1] ∧
        (up.port .p0).session.isOpen = true ∧ up.transit.kicks = []) ∧
    (Instr.acquire .p0 h0 [1] .handedOn).request =
        some ⟨.p0, h0, [0x30, 1], true, true, false, .handedOn⟩ ∧
    (up.port .p0).service ≠ some ⟨h0, [0x30, 1], none⟩ := by
  decide +kernel

theorem witness_ReplayAndOverrun :
    (let s := up.onPort .p0 fun c => { c with cache := some ⟨15, [0x00]⟩ };
      let h : Header := ⟨true, true, 15⟩;
      (Instr.closeReq .p0 h []).request = some ⟨.p0, h, [0x11], true, true, false, .whole⟩ ∧
        s.hears .p0 [0x11] ∧ (s.port .p0).service = none ∧ (s.port .p0).cache = some ⟨15, [0x00]⟩ ∧
        h.retry = true ∧ h.seq = 15) ∧
    (let s := up.onPort .p0 fun c => { c with service := some ⟨h0, [0x11], none⟩ };
      (Instr.closeReq .p0 h0 []).request = some ⟨.p0, h0, [0x11], true, true, false, .whole⟩ ∧
        s.hears .p0 [0x11] ∧ (s.port .p0).service.isSome = true) := by decide +kernel

theorem witness_OpenCarriedOut :
    up.takes .p3 h0 [0x10, 0x9F, 4, 1, 7, 255, 0] ∧ up.takes .p0 h0 [0x10, 0x01, 5, 0, 0, 0, 0] ∧
    (1 ≤ (4 : Byte).toNat ∧ (4 : Byte).toNat ≤ 4 ∧ 1 ≤ (1 : Byte).toNat ∧ (7 : Byte).toNat ≤ 7) ∧
    ¬((5 : Byte).toNat ≤ 4) := by decide +kernel

theorem witness_CloseTearsDown :
    ((busy.port .p0).tx = .free ∧ Port.p1 ≠ Port.p0) ∧
    ((busy.onPort .p0 fun c => { c with tx := .response [0x20] true }).port .p0).tx = .response [0x20] true ∧
    busy.takesOpen .p0 h0 [0x11] ∧
    (Instr.acquire .p0 h0 [1] .handedOn).request =
        some ⟨.p0, h0, [0x30, 1], true, true, false, .handedOn⟩ := by decide +kernel

theorem witness_PingResyncStatus :
    ((List.replicate 16 (0 : Byte)).length ≤ 16 ∧ up.takesOpen .p1 h0 (0x12 :: List.replicate 16 0)) ∧
    busy.takesOpen .p0 h0 [0x14] ∧ up.takes .p3 h0 [0x13] := by decide +kernel

theorem witness_KickDecided :
    (up.takesOpen .p1 h0 [0x50, 0] ∧ Port.p1 ≠ up.supervisor) ∧
    (up.takesOpen .p0 h0 [0x50, 4] ∧ 3 < (4 : Byte).toNat) ∧
    (up.takesOpen .p0 h0 [0x50, 0] ∧ (0 : Byte) = portByte .p0) ∧
    (up.takesOpen .p0 h0 [0x50, 3] ∧ Port.p0 = up.supervisor ∧ Port.p3 ≠ Port.p0 ∧ (3 : Byte) = portByte .p3) ∧
    (let s := { up with transit := { Transit.empty with kicks := [⟨.p0, .p1, true⟩, ⟨.p0, .p3, false⟩] } };
      s.transit.kicks.find? (·.named == .p1) = some ⟨.p0, .p1, true⟩ ∧ (s.port .p1).session.isOpen = true ∧
        s.transit.kicks.find? (·.named == .p3) = some ⟨.p0, .p3, false⟩ ∧
        (s.port .p3).session.isOpen = false) := by decide +kernel

/-- `up` with a keepalive count at P0. -/
def counting (n : Nat) : State :=
  up.onPort .p0 fun c => { c with session := { c.session with keepalive := 9, keepCount := some n } }

theorem witness_KeepaliveSecondsCount :
    (State.reset.standby.running = false ∧ (up.port .p3).session.isOpen = false ∧
      (up.port .p0).session.keepCount = none) ∧
    (∀ n ∈ [0, 1, 255], (counting n).standby.running = true ∧
      ((counting n).port .p0).session.isOpen = true ∧
      ((counting n).port .p0).session.keepCount = some n) := by decide +kernel

theorem witness_EntryRequestChecks :
    (let s := { busy with table := { busy.table with mode := .rescan ⟨0, 0, 0⟩ } };
      let r : RequestForm := ⟨.p0, h0, [0x42, 0, 3], true, true, true, .whole⟩;
      (Instr.suspend .p0 h0 [0, 3]).request = some r ∧ r.entry = true ∧ r.phase = .whole ∧ r.lengthOk = true ∧
        s.takesOpen .p0 h0 [0x42, 0, 3] ∧ s.table.mode ≠ .normal) ∧
    (busy.table.mode = .normal ∧ (handleAt [0, 64, 0] 1).bind busy.current = none ∧
      (handleAt [0, 0, 4] 1).bind busy.current = none ∧ (handleAt [0, 63, 0] 1).bind busy.current = none ∧
      busy.takesOpen .p1 h0 [0x53, 64, 0] ∧ busy.takesOpen .p0 h0 [0x41, 0, 4, 0, 0, 0, 0]) ∧
    (busy.current ⟨0, 3⟩ = some (once (.armed 1100)) ∧ (once (.armed 1100)).owner ≠ .p1 ∧
      busy.takesOpen .p1 h0 [0x44, 0, 3] ∧ Port.p1 ≠ busy.supervisor ∧ busy.takesOpen .p1 h0 [0x53, 0, 3]) := by decide +kernel

theorem witness_CreateValueChecks :
    createLengthOk ([0x40, 0, 0] ++ List.replicate 16 0) = true ∧
    createLengthOk ([0x40, 0, 1] ++ List.replicate 13 0) = true ∧
    createLengthOk ([0x40, 1, 0] ++ List.replicate 20 0) = true ∧
    createLengthOk ([0x40, 1, 1] ++ List.replicate 17 0) = true ∧
    createLengthOk ([0x40, 2, 0] ++ List.replicate 15 0) = true ∧
    createLengthOk [0x40, 3, 0] = true := by decide +kernel

theorem witness_ParametersAreACreateBody :
    (807874559999 ≤ Config.lastInstant ∧ (once .held).repeatLimit = 1) ∧
    ((0 : Nat) < 4294967295 ∧ (4294967295 : Nat) < 4294967296) ∧
    (let q : Pattern := ⟨some 12, some 31, some 7, some 23, some 59, some 59⟩;
      (∀ v, q.month = some v → 1 ≤ v ∧ v ≤ 12) ∧ (∀ v, q.day = some v → 1 ≤ v ∧ v ≤ 31) ∧
        (∀ v, q.weekday = some v → 1 ≤ v ∧ v ≤ 7) ∧ (∀ v, q.hour = some v → v ≤ 23) ∧
        (∀ v, q.minute = some v → v ≤ 59) ∧ (∀ v, q.second = some v → v ≤ 59)) ∧
    ({ matching .held with repeatLimit := 65535, tolerance := 65535 } : Entry).delivery ≠ PortSet.empty := by
  refine ⟨by decide, by decide, ?_, by decide⟩
  refine ⟨?_, ?_, ?_, ?_, ?_, ?_⟩ <;> intro v h <;> cases h <;> decide

/-- A CREATE body of a ONCE entry with relative start 256. -/
def createBody : List Byte := [0x40, 0, 1, 0, 0, 1, 0, 0, 1, 0, 0, 2, 0, 0, 0, 9]

theorem witness_CreateFillsLowestSlot :
    (up.takesOpen .p1 h0 createBody ∧ createLengthOk createBody = true ∧ up.table.mode = .normal ∧
      (entryOf .p1 createBody).isSome = true ∧ up.ownedCount .p1 < up.table.quota.get .p1 ∧
      up.entry 0 = none) ∧
    (let s := { up with table := { up.table with quota := ⟨16, 0, 16, 16⟩ } };
      s.table.quota.get .p1 ≤ s.ownedCount .p1) ∧
    (let s := { up with table := { up.table with slots := Vector.replicate 64 ⟨0, some (once .held)⟩ } };
      s.takesOpen .p1 h0 createBody ∧ ∀ i, s.entry i ≠ none) ∧
    (up.takesOpen .p1 h0 [0x40, 3, 0] ∧ createLengthOk [0x40, 3, 0] = true ∧
      entryOf .p1 [0x40, 3, 0] = none) := by decide +kernel

theorem witness_ArmResolvesStart :
    (let s := withEntry valid (once .held);
      s.takesOpen .p0 h0 [0x41, 0, 3] ∧ s.table.mode = .normal ∧ s.current ⟨0, 3⟩ = some (once .held) ∧
        (once .held).owner = .p0 ∧ s.time.valid = true) ∧
    (busy.takesOpen .p0 h0 [0x41, 0, 3] ∧ busy.current ⟨0, 3⟩ = some (once (.armed 1100))) ∧
    (let s := withEntry up (once (.spent .epoch));
      s.takesOpen .p0 h0 [0x41, 0, 3] ∧ s.current ⟨0, 3⟩ = some (once (.spent .epoch)) ∧
        s.time.valid = false) ∧
    (let s := withEntry valid (matching .held);
      s.takesOpen .p0 h0 [0x41, 0, 3, 0, 0, 0, 1] ∧ s.takesOpen .p0 h0 [0x41, 0, 3] ∧
        s.current ⟨0, 3⟩ = some (matching .held)) := by decide +kernel

theorem witness_ArmResolvesStart_override :
    (let s := withEntry valid (periodic .held);
      s.takesOpen .p0 h0 [0x41, 0, 3, 99, 2, 29, 0, 0, 0, 0] ∧
        (instantAt [0x41, 0, 3, 99, 2, 29, 0, 0, 0, 0] 3).isReal = false ∧
        s.takesOpen .p0 h0 [0x41, 0, 3, 99, 12, 31, 23, 59, 59, 255] ∧
        (instantAt [0x41, 0, 3, 99, 12, 31, 23, 59, 59, 255] 3).isReal = true ∧
        (instantAt [0x41, 0, 3, 99, 12, 31, 23, 59, 59, 255] 3).toCount = Config.lastInstant) ∧
    (let s := withEntry { valid with time := { valid.time with instant := 807874559999 } } (periodic .held);
      s.takesOpen .p0 h0 [0x41, 0, 3, 0, 0, 0, 1] ∧
        Config.lastInstant < s.time.instant + numberAt [0x41, 0, 3, 0, 0, 0, 1] 3 4) := by decide +kernel

theorem witness_SuspendAndResume :
    (busy.takesOpen .p0 h0 [0x42, 0, 3] ∧ busy.table.mode = .normal ∧
      busy.current ⟨0, 3⟩ = some (once (.armed 1100))) ∧
    (∀ st ∈ [EntryState.armed 5, .searching, .held], ∀ s ∈ [withEntry valid (matching st)],
      s.takesOpen .p0 h0 [0x42, 0, 3] ∧ s.current ⟨0, 3⟩ = some (matching st)) ∧
    (∀ st ∈ [EntryState.suspended none, .suspended (some 807874559999), .held],
      ∀ s ∈ [withEntry valid (once st), withEntry up (once st)],
      s.takesOpen .p0 h0 [0x43, 0, 3] ∧ s.current ⟨0, 3⟩ = some (once st)) := by decide +kernel

theorem witness_FreeingRequests :
    (busy.table.mode = .normal ∧ busy.current ⟨0, 3⟩ = some (once (.armed 1100)) ∧
      busy.takesOpen .p0 h0 [0x44, 0, 3] ∧ busy.takesOpen .p0 h0 [0x53, 0, 3] ∧ Port.p0 = busy.supervisor) ∧
    (let s := { busy with transit := { Transit.empty with releases := [.p1, .p0] } };
      Port.p0 ∈ s.transit.releases ∧ s.table.mode = .normal ∧ s.entry 0 = some (once (.armed 1100)) ∧
        (once (.armed 1100)).orphan = .release ∧ s.entry 1 = some (matching .searching) ∧
        (matching .searching).orphan ≠ .release) ∧
    (let s := { busy with
        table := { busy.table with mode := .rescan ⟨0, 0, 0⟩ }
        transit := { Transit.empty with releases := [.p0] } };
      Port.p0 ∈ s.transit.releases ∧ s.table.mode ≠ .normal) := by decide +kernel

theorem witness_QueryAndList :
    (∀ part ∈ ([0, 1, 2, 255] : List Byte), busy.takesOpen .p1 h0 [0x45, 0, 3, part] ∧
      busy.table.mode = .normal ∧ busy.current ⟨0, 3⟩ = some (once (.armed 1100))) ∧
    (∀ g ∈ ([0, 3, 4] : List Byte), busy.takesOpen .p1 h0 [0x46, 3, g]) ∧
    busy.takesOpen .p1 h0 [0x46, 4, 0] ∧
    ((7 : Nat) < 8 ∧ (62 : Nat) = 16 * (3 : Byte).toNat + 2 * 7) := by decide +kernel

theorem witness_SetQuotaDecided :
    (∀ n ∈ ([0, 16, 64, 65] : List Byte), busy.takesOpen .p0 h0 [0x51, 0, n] ∧ busy.table.mode = .normal ∧
      Port.p0 = busy.supervisor) ∧
    (busy.takesOpen .p1 h0 [0x51, 0, 0] ∧ Port.p1 ≠ busy.supervisor) ∧
    (let s := { busy with table := { busy.table with mode := .rescan ⟨0, 0, 0⟩ } };
      s.takesOpen .p0 h0 [0x51, 0, 0] ∧ s.table.mode ≠ .normal) ∧
    64 < 17 + 16 + 16 + 16 ∧ (0 : Byte).toNat < busy.ownedCount .p0 ∧
    busy.ownedCount .p0 ≤ (2 : Byte).toNat := by decide +kernel

theorem witness_PlacementMovesLists :
    busy.search.engine = .running 1 .searching ∧ (∀ ph, busy.search.engine ≠ .running 0 ph) ∧
    (once (.armed 1100)).state = .armed 1100 ∧ (matching .searching).state = .searching ∧
    (∀ due, (matching .searching).state ≠ .armed due) ∧ (once .held).state ≠ .searching ∧
    up.search.engine = .idle ∧ State.reset.search.engine = .paused ∧
    busy.dueList.Pairwise (fun a b => a.before b = true) := by
  refine ⟨rfl, fun ph h => ?_, rfl, rfl, fun due h => ?_, by decide, rfl, rfl, by decide +kernel⟩
  · cases h
  · cases h

theorem witness_LookFiresReachedEntries :
    DueListLaw busy ∧
    (let s := { busy with transit := { Transit.empty with
        looks := [.tableEvent, .presented 4 1100 (some 1099)] } };
      s.transit.looks.find? (·.isFrom .timebase) = some (.presented 4 1100 (some 1099)) ∧
        LookMsg.tableEvent ∈ s.transit.looks) := ⟨busy_dueList, by decide +kernel⟩

theorem witness_FiringComputed :
    (1100 ≤ 1100 ∧ (once (.armed 1100)).plan = .once (.absolute 5) .absolute) ∧
    ((periodic (.armed 5)).plan = .periodic (.relative 5) 64 .relative ∧ 0 < 64 ∧
      (periodic (.armed 5)).remaining = some 5 ∧ 5 ≤ 5 ∧ 5 < 6) ∧
    (5 + 1 * 64 ≤ Config.lastInstant ∧ Config.lastInstant < 807874559999 + 1 * 64) ∧
    ((matching (.armed 256)).plan = .calendar ⟨none, none, none, none, none, some 0⟩ ∧
      (matching (.armed 256)).remaining = none ∧ 807874559488 + 256 ≤ Config.lastSecond ∧
      Config.lastSecond < 807874559744 + 256) := by decide +kernel

theorem witness_FiringClaimApplied :
    (let c : FiringClaim := firingClaimFor ⟨0, 3⟩ (once (.armed 1100)) 1100 none 1100;
      let s := { busy with transit := { Transit.empty with firings := [⟨4, c⟩] } };
      s.transit.firings = [⟨4, c⟩] ∧ s.current c.handle = some (once (.armed 1100)) ∧
        (once (.armed 1100)).state = .armed c.due) ∧
    (let c : FiringClaim := firingClaimFor ⟨0, 3⟩ (once (.armed 1100)) 1100 none 1099;
      busy.current c.handle = some (once (.armed 1100)) ∧ (once (.armed 1100)).state ≠ .armed c.due) ∧
    (let c : FiringClaim := firingClaimFor ⟨0, 3⟩ { periodic (.armed 192) with remaining := some 4 } 256 none 192;
      let e := { periodic (.armed 192) with remaining := some 2 };
      (withEntry up e).current c.handle = some e ∧ e.state = .armed c.due ∧ 2 ≤ c.occurrences ∧
        c.next ≠ .spent .countDone) ∧
    (let s := { up with transit := { Transit.empty with wakes := 1 } };
      0 < s.transit.wakes ∧ s.standby.flag = false ∧ State.reset.standby.flag = true) := by decide +kernel

theorem witness_SearchFindsEarliestMatch :
    (0 % 256 = 0 ∧ 0 ≤ Config.lastSecond) ∧ (807874559744 % 256 = 0 ∧ 807874559744 ≤ Config.lastSecond) := by
  decide

theorem witness_SearchRunAndResult :
    (busy.search.engine = .running 1 .searching ∧ busy.search.jobs = [⟨1, 0, .second 1024⟩] ∧
      busy.entry 1 = some (matching .searching)) ∧
    (∀ found ∈ [some 15360, none], ∀ ref ∈ [Reference.second 1024, .pastEpoch],
      let s := { busy with transit := { Transit.empty with results := [⟨1, 0, ref, found⟩] } };
      s.transit.results = [⟨1, 0, ref, found⟩] ∧ s.current ⟨1, 0⟩ = some (matching .searching) ∧
        s.reference 1 = some (.second 1024)) := by decide +kernel

theorem witness_RescanTreatsEverySlot :
    (let m : TimeMsg := ⟨0, false, .step (-5) 7⟩;
      let s := { busy with transit := { Transit.empty with timeClaims := [m] } };
      s.timeClaimReady = some m ∧ m.claim = .step (-5) 7 ∧ s.table.mode = .normal) ∧
    (∀ pos ∈ [0, 1, 63, 64],
      let s := { busy with table := { busy.table with mode := .rescan ⟨-5, 7, pos⟩ } };
      s.table.mode = .rescan ⟨-5, 7, pos⟩ ∧ s.entry 0 = some (once (.armed 1100)) ∧
        s.entry 1 = some (matching .searching) ∧ s.entry 63 = none) ∧
    (busy.transit.timeClaims = [] ∧ ∀ look ∈ [3, 4], ∀ firing ∈ [3, 4],
      let m : TimeMsg := ⟨4, true, .step (-5) 7⟩;
      let c := firingClaimFor ⟨0, 3⟩ (once (.armed 1100)) 1100 none 1100;
      let s := { busy with transit := { Transit.empty with
        timeClaims := [m], looks := [.presented look 1100 none], firings := [⟨firing, c⟩] } };
      (look < m.stamp ∨ firing < m.stamp → s.timeClaimReady = none) ∧
        (¬(look < m.stamp ∨ firing < m.stamp) → s.timeClaimReady = some m)) := by decide +kernel

theorem witness_EpochEndEndsLiveEntries :
    (let m : TimeMsg := ⟨0, true, .epochEnd⟩;
      let s := { busy with transit := { Transit.empty with timeClaims := [m] } };
      s.timeClaimReady = some m ∧ m.claim = .epochEnd ∧ DueListLaw s ∧ SearchQueueLaw s ∧
        EngineLaw s) ∧
    (∀ m, busy.timeClaimReady = some m → m.claim ≠ .epochEnd) :=
  ⟨⟨by decide +kernel, rfl, ⟨busy_dueList.1, busy_dueList.2⟩,
    ⟨busy_searchQueue.1, busy_searchQueue.2, busy_searchQueue.3⟩, by show _ ∧ _; decide +kernel⟩,
    fun _ h => nomatch h⟩

theorem witness_NoticePlaced :
    (let m : NoticeMsg := ⟨.timebase, 5, 5, .slewDone, .openSessions⟩;
      let s := { busy with transit := { Transit.empty with
        notices := [m, ⟨.lease, 5, 0, .lease .reset, .ports (PortSet.single .p0)⟩] } };
      s.noticeReady .timebase = some m) ∧
    (let m : NoticeMsg := ⟨.timebase, 6, 5, .commitDropped, .ports (PortSet.single .p0)⟩;
      let x : NoticeMsg := ⟨.lease, 4, 0, .lease .reset, .ports (PortSet.single .p0)⟩;
      let s := { busy with transit := { Transit.empty with notices := [x] ++ m :: [] } };
      x.src ≠ .timebase ∧ x.stamp < m.after ∧ s.noticeReady .timebase = none) ∧
    (busy.queue .p0).unsent = [] ++ ⟨.firing false ⟨0, 3⟩ 7 900 1 0 true, false⟩ :: [] ∧
    (∀ n, ∀ r ∈ (busy.queue .p1).unsent, r.firingHandle ≠ some n) ∧ (busy.queue .p1).size < 16 ∧
    16 ≤ (⟨[], List.replicate 16 ⟨.slewDone, true⟩, false⟩ : NoticeQueue).size ∧
    (∀ a b d e f g h, Content.slewDone ≠ .firing a b d e f g h) := by
  refine ⟨by decide +kernel, by decide +kernel, by decide +kernel, fun n r h => ?_, by decide +kernel,
    by decide +kernel, ?_⟩
  · exact (List.not_mem_nil h).elim
  · intro a b d e f g h he
    cases he

theorem witness_ReturnToUnsentMerges :
    let q : NoticeQueue := ⟨[⟨⟨.firing false ⟨0, 3⟩ 7 900 255 0 false, false⟩, 0, true⟩],
      [⟨.firing true ⟨0, 3⟩ 7 964 1 20 true, true⟩], false⟩;
    let before := q.inFlight.map (·.record) ++ q.unsent;
    before.filterMap (·.firingHandle) = [⟨0, 3⟩, ⟨0, 3⟩] ∧
      before.filterMap (fun r => match r.content with
        | .firing _ _ _ _ c _ _ => some c
        | _ => none) = [255, 1] ∧
      before.filterMap (fun r => match r.content with
        | .firing m _ _ _ _ _ fin => some (m, fin)
        | _ => none) = [(false, false)] ++ [(true, true)] := by decide +kernel

theorem witness_AckRetires :
    (busy.hears .p0 [] ∧ (busy.port .p0).session.isOpen = true ∧
      (busy.queue .p0).inFlight = [] ++ ⟨⟨.slewDone, false⟩, 0, false⟩ :: [] ∧ h0.seq = 0) ∧
    (up.hears .p3 [] ∧ (up.port .p3).session.isOpen = false) ∧
    (∀ y ∈ (busy.queue .p0).inFlight, y.seq ≠ 1) := by decide +kernel

theorem witness_AckTimerRuns :
    (busy.standby.running = true ∧ State.reset.standby.running = false) ∧
    (∀ retries ∈ [2, 3],
      let s := busy.onPort .p0 fun c => { c with delivery := ⟨.ready, 1, retries, some 50⟩ };
      s.standby.running = true ∧ (s.port .p0).delivery.state = .ready ∧
        (s.port .p0).delivery.timer = some 50 ∧ (s.port .p0).session.ackTimeout ≤ 50 ∧
        (s.port .p0).session.retryLimit = 3) ∧
    (busy.port .p0).delivery.timer = some 4 ∧ ¬(busy.port .p0).session.ackTimeout ≤ 4 := by decide +kernel

theorem witness_FramesSentInOrder :
    (let s := up.onPort .p0 fun c => { c with service := some ⟨h0, [0x11], some ⟨[0x01], false⟩⟩ };
      s.standby.running = true ∧ (s.port .p0).tx = .free ∧
        (s.port .p0).service = some ⟨h0, [0x11], some ⟨[0x01], false⟩⟩) ∧
    ((busy.port .p0).service = none ∧ (busy.port .p0).delivery.state = .ready ∧
      (busy.port .p0).tx = .free ∧ (∀ y ∈ (busy.queue .p0).inFlight, y.marked = false) ∧
      (busy.queue .p0).unsent = ⟨.firing false ⟨0, 3⟩ 7 900 1 0 true, false⟩ :: [] ∧
      (busy.queue .p0).inFlight.length < (busy.port .p0).session.window) ∧
    ((busy.onQueue .p0 NoticeQueue.allMarked).queue .p0).inFlight
      = [] ++ ⟨⟨.slewDone, false⟩, 0, true⟩ :: [] ∧
    (∀ tx ∈ [Transmitter.response [0x20] true, .response [0x20] false, .notice [0x40]],
      ((busy.onPort .p0 fun c => { c with tx := tx }).port .p0).tx = tx ∧ tx ≠ .free) ∧
    (up.port .p2).delivery.state ≠ .ready ∧ (up.queue .p0).unsent = [] ∧
    (let q := (busy.onQueue .p0 fun q => { q with inFlight := q.inFlight ++ q.inFlight }).queue .p0;
      (busy.port .p0).session.window ≤ q.inFlight.length) := by decide +kernel

theorem witness_ReceiverStepsAndEvents :
    (up.listening .p0 = true ∧ up.listening .p3 = true ∧ (up.port .p0).rx = .hunt) ∧
    (takeChars .hunt [⟨0, true, false⟩]).accepted = false ∧
    ((up.port .p0).session.isOpen = true ∧ (up.port .p3).session.isOpen = false) ∧
    ((up.onPort .p0 fun c => { c with rx := .inFrame [0x60] }).port .p0).rx = .inFrame [0x60] ∧
    ((List.replicate 24 (0 : Byte)).length < (24 : Byte).toNat + 1 ∧
      (List.replicate 24 (0 : Byte)).length = (24 : Byte).toNat) := by decide +kernel

theorem witness_ReceiverAcceptsFrames :
    (List.replicate 24 (0 : Byte)).length ≤ Config.bodyRoom ∧
    27 < (lineChars (frameBytes .notice h0 (List.replicate 24 0))).length := by decide +kernel

theorem witness_StandbyHoldAndStart :
    (up.standby.pfPin.run < 4 ∧ up.standby.pfPin.level = up.standby.pf ∧ up.pending = [] ∧
      nextClaim up = none) ∧
    (let s := { up with standby := { up.standby with pfPin := ⟨true, 4⟩, rstPin := ⟨true, 4⟩ } };
      s.standby.pfPin.run = 4 ∧ s.standby.pfPin.level ≠ s.standby.pf ∧ s.pending = [] ∧
        nextClaim s = none) ∧
    (let s := { up with standby := { up.standby with rstPin := ⟨true, 4⟩ } };
      s.standby.pfPin.run ≠ 4 ∧ s.standby.rstPin.run = 4 ∧ s.pending = [] ∧ nextClaim s = none) ∧
    ((true || !true) = true ∧ up.standby.running = true ∧ State.reset.standby.running = false) ∧
    (((false || !true) || true) = true ∧ ((false || !true) || false) = false) := by decide +kernel

/-- `up` with a record waiting at P2, which has no session. -/
def waitingRecord : State := up.onQueue .p2 fun q => { q with unsent := [⟨.slewDone, false⟩] }

theorem witness_AttentionOutput :
    (HoldLaw State.reset ∧ holdCond State.reset.standby.pf State.reset.standby.rst
      State.reset.standby.vddGood = true) ∧
    (HoldLaw waitingRecord ∧ holdCond waitingRecord.standby.pf waitingRecord.standby.rst
      waitingRecord.standby.vddGood = false ∧ (waitingRecord.port .p2).session.isOpen = false ∧
      0 < (waitingRecord.queue .p2).size) := by
  refine ⟨⟨⟨fun _ p => ?_, fun _ => rfl, rfl, rfl, fun h => ?_⟩, rfl⟩,
    ⟨fun h => ?_, fun h => ?_, rfl, rfl, fun h => ?_⟩, by decide +kernel⟩
  · cases p <;> decide
  all_goals cases h

/-! ### The points of the review -/

/-- R172: a pulse of three samples on PF is not taken, and the fourth sample makes the change due. -/
theorem test_filter_three_and_four :
    let s := after (exec (.pf true noStraps .pin) up)
    let three := crystalCycle (crystalCycle (crystalCycle s))
    nextInternal three = none ∧ three.standby.pf = false ∧
      (after (step (crystalCycle three))).standby.pf = true := by decide +kernel

/-- R172, R178: a cold start with VDD good, PF deasserted and RST asserted has the standby flag clear
and stays held. -/
theorem test_cold_flag_clear :
    let t := after (exec (.coldStart false true (some noStraps)) up)
    t.standby.flag = false ∧ t.standby.running = false ∧ t.standby.cause = .none := by decide +kernel

/-- R17: a READ_TRIM ahead of the window start reports the old trim and 31. -/
theorem test_trim_before_window_start :
    let s := { up with osc := { up.osc with trim := 3, pendingTrim := -5 }
                       transit := { Transit.empty with marks := { Transit.empty.marks with windowStarts := 1 } } }
    (((after (exec (.readTrim .p0 h0 []) s)).port .p0).service.bind (·.response)).map (·.body)
      = some [0x00, 3, 0xFB, 31] := by decide +kernel

/-- R148: an ACQUIRE that waits when the session is torn down has no effect and gets no response. -/
theorem test_waiting_request_torn_down :
    let waiting := after (exec (.acquire .p1 h0 [9] .accepted) valid)
    let torn := after (exec (.breakLine .p1) waiting)
    let t := after (exec (.acquire .p1 h0 [9] .handedOn) torn)
    (waiting.port .p1).service = some ⟨h0, [0x30, 9], none⟩ ∧ t.lease.holder = none ∧
      (t.port .p1).service = none := by decide +kernel

/-- R128: an advance presented during a rescan fires nothing after its end. -/
theorem test_presentation_in_rescan_is_lost :
    let s := { busy with
      table := { busy.table with mode := .rescan ⟨0, 0, 64⟩ }
      transit := { Transit.empty with looks := [.presented 0 1100 (some 1099)] } }
    (after (exec .rescanEnd s)).transit.looks = [.tableEvent] := by decide +kernel

/-- R154: the levels of the header 41h. -/
theorem test_levels :
    charLevels ⟨0x41, true, true⟩ =
      [false, true, false, false, false, false, false, true, false, true, true] := by decide

end Sys2Proof.Tests
end

section
/-! PROOFS. The calendar view and the count of an instant (R8 to R11). -/

namespace Sys2Proof.Machine

/-! ### Months within a year -/

@[simp] theorem monthLengths_length (y : Nat) : (monthLengths y).length = 12 := by
  simp [monthLengths]

theorem monthLengths_getElem (y i : Nat) (h : i < (monthLengths y).length) :
    (monthLengths y)[i] = monthLength y (i + 1) := by
  simp [monthLengths]

/-- The days before a month are the lengths of the months before it. -/
theorem daysBeforeMonth_eq_take (y m : Nat) (hm : m ≤ 13) :
    daysBeforeMonth y m = ((monthLengths y).take (m - 1)).sum := by
  have h : min (m - 1) 12 = m - 1 := by omega
  simp [daysBeforeMonth, monthLengths, ← List.map_take, List.take_range, h]

theorem daysBeforeMonth_succ (y m : Nat) (hm : 1 ≤ m) :
    daysBeforeMonth y (m + 1) = daysBeforeMonth y m + monthLength y m := by
  obtain ⟨k, rfl⟩ : ∃ k, m = k + 1 := ⟨m - 1, by omega⟩
  simp [daysBeforeMonth, List.range_succ]

@[simp] theorem daysBeforeMonth_one (y : Nat) : daysBeforeMonth y 1 = 0 := rfl

theorem daysBeforeMonth_mono (y : Nat) {m n : Nat} (h : m ≤ n) :
    daysBeforeMonth y m ≤ daysBeforeMonth y n := by
  obtain ⟨k, rfl⟩ := Nat.exists_eq_add_of_le h
  induction k with
  | zero => exact Nat.le_refl _
  | succ k ih =>
    refine (ih (by omega)).trans ?_
    rcases Nat.eq_zero_or_pos (m + k) with h0 | h0
    · simp [show m = 0 by omega, show k = 0 by omega, daysBeforeMonth]
    · rw [← Nat.add_assoc, daysBeforeMonth_succ y _ h0]
      exact Nat.le_add_right _ _

/-- The days of a year. -/
def yearLength (y : Nat) : Nat := if leapYear y then 366 else 365

theorem sum_monthLengths (y : Nat) : (monthLengths y).sum = yearLength y := by
  cases h : leapYear y <;> simp [monthLengths, monthLength, yearLength, h, List.range_succ]

/-- The thirteenth month would begin with the next year. -/
theorem daysBeforeMonth_thirteen (y : Nat) : daysBeforeMonth y 13 = yearLength y := by
  rw [daysBeforeMonth_eq_take y 13 (Nat.le_refl _), List.take_of_length_le (by simp),
    sum_monthLengths]

theorem daysBeforeYear_succ (y : Nat) : daysBeforeYear (y + 1) = daysBeforeYear y + yearLength y := by
  unfold daysBeforeYear yearLength leapYear
  by_cases h : y % 4 = 0
  · simp only [h, beq_self_eq_true, if_true]; omega
  · simp only [beq_iff_eq, h, if_false]; omega

/-! ### The month and day of a day of the year -/

/-- Counting off the lengths of the months before it finds the month of a day. -/
theorem monthDay_take (l : List Nat) (first i j : Nat) (hi : i < l.length) (hj : j < l[i]) :
    monthDay l first ((l.take i).sum + j) = (first + i, j + 1) := by
  induction l generalizing first i with
  | nil => exact absurd hi (Nat.not_lt_zero _)
  | cons x rest ih =>
    cases i with
    | zero =>
      have hx : j < x := hj
      simp [monthDay, hx]
    | succ i =>
      have hpass : ¬ x + (rest.take i).sum + j < x := by omega
      have hrest : x + (rest.take i).sum + j - x = (rest.take i).sum + j := by omega
      simp only [List.take_succ_cons, List.sum_cons, monthDay, hpass, if_false, hrest]
      rw [ih (first + 1) i (by simpa using hi) hj]
      exact Prod.ext (by simp; omega) rfl

/-- A day that lies in some month of a list lies in one of them at some day of it. -/
theorem exists_month_of_lt_sum (l : List Nat) (n : Nat) (h : n < l.sum) :
    ∃ (i j : Nat) (hi : i < l.length), j < l[i] ∧ n = (l.take i).sum + j := by
  induction l generalizing n with
  | nil => exact absurd h (Nat.not_lt_zero _)
  | cons x rest ih =>
    rcases Nat.lt_or_ge n x with hx | hx
    · exact ⟨0, n, by simp, hx, by simp⟩
    · obtain ⟨i, j, hi, hj, e⟩ := ih (n - x) (by rw [List.sum_cons] at h; omega)
      exact ⟨i + 1, j, by simpa using hi, hj, by simp only [List.take_succ_cons, List.sum_cons]; omega⟩

/-- The month and day of the day of a year that a real month and day give. -/
theorem monthDay_daysBeforeMonth {y m day : Nat} (hm : 1 ≤ m) (hm' : m ≤ 12) (hd : 1 ≤ day)
    (hd' : day ≤ monthLength y m) :
    monthDay (monthLengths y) 1 (daysBeforeMonth y m + (day - 1)) = (m, day) := by
  have hi : m - 1 < (monthLengths y).length := by simp; omega
  have hj : day - 1 < (monthLengths y)[m - 1] := by
    rw [monthLengths_getElem, Nat.sub_add_cancel hm]; omega
  rw [daysBeforeMonth_eq_take y m (by omega), monthDay_take _ 1 _ _ hi hj]
  exact Prod.ext (by simp; omega) (by simp; omega)

/-- Every day of a year has a real month and day, which lie that many days into the year. -/
theorem monthDay_real {y n : Nat} (h : n < yearLength y) :
    ∃ m day, monthDay (monthLengths y) 1 n = (m, day) ∧ 1 ≤ m ∧ m ≤ 12 ∧ 1 ≤ day ∧
      day ≤ monthLength y m ∧ daysBeforeMonth y m + (day - 1) = n := by
  obtain ⟨i, j, hi, hj, rfl⟩ := exists_month_of_lt_sum (monthLengths y) n (by rwa [sum_monthLengths])
  have hlen : i < 12 := by simpa using hi
  refine ⟨1 + i, j + 1, monthDay_take _ 1 i j hi hj, by omega, by omega, by omega, ?_, ?_⟩
  · rw [monthLengths_getElem] at hj
    rw [Nat.add_comm 1 i]; omega
  · rw [daysBeforeMonth_eq_take y _ (by omega), Nat.add_sub_cancel_left, Nat.add_sub_cancel]

/-! ### The year of a day -/

/-- The day of the year of a real month and day lies within its year. -/
theorem daysBeforeMonth_add_lt {y m day : Nat} (hm : 1 ≤ m) (hm' : m ≤ 12) (hd : 1 ≤ day)
    (hd' : day ≤ monthLength y m) : daysBeforeMonth y m + (day - 1) < yearLength y := by
  have h := daysBeforeMonth_mono y (show m + 1 ≤ 13 by omega)
  rw [daysBeforeMonth_succ y m hm, daysBeforeMonth_thirteen] at h
  omega

theorem yearLength_eq (y : Nat) : yearLength y = if y % 4 = 0 then 366 else 365 := by
  simp [yearLength, leapYear]

/-- A day within a year has that year. -/
theorem yearOfDays_eq {y n : Nat} (h : n < yearLength y) : yearOfDays (daysBeforeYear y + n) = y := by
  rw [yearLength_eq] at h
  unfold yearOfDays daysBeforeYear
  split_ifs at h ⊢ <;> omega

/-- Every day lies within its year. -/
theorem yearOfDays_bounds (d : Nat) :
    daysBeforeYear (yearOfDays d) ≤ d ∧ d - daysBeforeYear (yearOfDays d) < yearLength (yearOfDays d) := by
  rw [yearLength_eq]
  unfold yearOfDays daysBeforeYear
  split_ifs <;> omega

/-! ### The two views of an instant -/

theorem Calendar.isReal_iff (c : Calendar) : c.isReal = true ↔
    c.year ≤ 99 ∧ 1 ≤ c.month ∧ c.month ≤ 12 ∧ 1 ≤ c.day ∧ c.day ≤ monthLength c.year c.month ∧
      c.hour ≤ 23 ∧ c.minute ≤ 59 ∧ c.second ≤ 59 ∧ c.fraction ≤ 255 := by
  simp only [Calendar.isReal, Bool.and_eq_true, decide_eq_true_eq, and_assoc]

/-- The days before a real date are those of the calendar's 36,525. -/
theorem Calendar.days_lt {c : Calendar} (h : c.isReal = true) : c.days < 36525 := by
  obtain ⟨hy, hm, hm', hd, hd', -⟩ := c.isReal_iff.mp h
  have hlt := daysBeforeMonth_add_lt hm hm' hd hd'
  rw [yearLength_eq] at hlt
  unfold Calendar.days daysBeforeYear
  split_ifs at hlt <;> omega

theorem Calendar.timeOfDay_lt {c : Calendar} (h : c.isReal = true) : c.timeOfDay < 86400 := by
  obtain ⟨-, -, -, -, -, hh, hmi, hs, -⟩ := c.isReal_iff.mp h
  unfold Calendar.timeOfDay
  omega

theorem Calendar.fraction_le {c : Calendar} (h : c.isReal = true) : c.fraction ≤ 255 := by
  obtain ⟨-, -, -, -, -, -, -, -, hf⟩ := c.isReal_iff.mp h
  exact hf

/-- The count of a real date lies within the epoch. -/
theorem Calendar.toCount_le {c : Calendar} (h : c.isReal = true) : c.toCount ≤ Config.lastInstant := by
  have hd := c.days_lt h
  have ht := c.timeOfDay_lt h
  have hf := c.fraction_le h
  unfold Calendar.toCount Config.lastInstant
  omega

/-- A real date is the calendar view of its days, its time of day and its fraction. -/
theorem calendarOf_self {c : Calendar} (h : c.isReal = true) :
    calendarOf c.days c.timeOfDay c.fraction = c := by
  obtain ⟨-, hm, hm', hd, hd', -, hmi, hs, -⟩ := c.isReal_iff.mp h
  have hdays : c.days = daysBeforeYear c.year + (daysBeforeMonth c.year c.month + (c.day - 1)) :=
    Nat.add_assoc _ _ _
  have hyear : yearOfDays c.days = c.year := by
    rw [hdays]; exact yearOfDays_eq (daysBeforeMonth_add_lt hm hm' hd hd')
  have hday : c.days - daysBeforeYear c.year = daysBeforeMonth c.year c.month + (c.day - 1) := by
    rw [hdays, Nat.add_sub_cancel_left]
  have hhour : c.timeOfDay / 3600 = c.hour := by unfold Calendar.timeOfDay; omega
  have hminute : c.timeOfDay / 60 % 60 = c.minute := by unfold Calendar.timeOfDay; omega
  have hsecond : c.timeOfDay % 60 = c.second := by unfold Calendar.timeOfDay; omega
  unfold calendarOf
  simp only [hyear, hday, monthDay_daysBeforeMonth hm hm' hd hd', hhour, hminute, hsecond]

/-- The calendar view of a day and time is real within the calendar, and gives them back. -/
theorem calendarOf_real {d t f : Nat} (hd : d < 36525) (ht : t < 86400) (hf : f < 256) :
    (calendarOf d t f).isReal = true ∧ (calendarOf d t f).days = d ∧
      (calendarOf d t f).timeOfDay = t := by
  obtain ⟨hle, hlt⟩ := yearOfDays_bounds d
  obtain ⟨m, day, hmd, hm, hm', hd1, hd', hn⟩ := monthDay_real hlt
  have hyear : yearOfDays d ≤ 99 := by unfold daysBeforeYear at hle; omega
  refine ⟨?_, ?_, ?_⟩
  · rw [Calendar.isReal_iff]
    simp only [calendarOf, hmd]
    omega
  · simp only [Calendar.days, calendarOf, hmd]
    omega
  · simp only [Calendar.timeOfDay, calendarOf]
    omega

/-- A count is its day, its time of day and its fraction. -/
theorem count_parts {n : Nat} (h : n ≤ Config.lastInstant) :
    n / Config.tuPerDay < 36525 ∧
      (n / Config.tuPerDay * 86400 + n / 256 % 86400) * 256 + n % 256 = n := by
  unfold Config.lastInstant at h
  unfold Config.tuPerDay
  omega

/-- The calendar view of the count of a real date is the date. -/
theorem calendarView_toCount {c : Calendar} (h : c.isReal = true) : calendarView c.toCount = c := by
  have ht := c.timeOfDay_lt h
  have hf := c.fraction_le h
  have hday : c.toCount / Config.tuPerDay = c.days := by
    unfold Calendar.toCount Config.tuPerDay; omega
  have htime : c.toCount / 256 % 86400 = c.timeOfDay := by unfold Calendar.toCount; omega
  have hfraction : c.toCount % 256 = c.fraction := by unfold Calendar.toCount; omega
  unfold calendarView
  rw [hday, htime, hfraction, calendarOf_self h]

section Count

variable {n : Nat} (h : n ≤ Config.lastInstant)

include h

theorem calendarView_isReal : (calendarView n).isReal = true :=
  (calendarOf_real (count_parts h).1 (Nat.mod_lt _ (by decide)) (Nat.mod_lt _ (by decide))).1

theorem calendarView_days : (calendarView n).days = n / Config.tuPerDay :=
  (calendarOf_real (count_parts h).1 (Nat.mod_lt _ (by decide)) (Nat.mod_lt _ (by decide))).2.1

theorem calendarView_timeOfDay : (calendarView n).timeOfDay = n / 256 % 86400 :=
  (calendarOf_real (count_parts h).1 (Nat.mod_lt _ (by decide)) (Nat.mod_lt _ (by decide))).2.2

theorem toCount_calendarView : (calendarView n).toCount = n := by
  unfold Calendar.toCount
  rw [calendarView_days h, calendarView_timeOfDay h]
  exact (count_parts h).2

end Count

/-! ### Weekdays and week numbers -/

/-- January 1 of a year begins its days. -/
theorem january1_day (y : Nat) :
    (⟨y, 1, 1, 0, 0, 0, 0⟩ : Calendar).toCount / Config.tuPerDay = daysBeforeYear y := by
  simp only [Calendar.toCount, Calendar.days, Calendar.timeOfDay, daysBeforeMonth_one, Config.tuPerDay]
  omega

/-- A year's last day lies in week 53 at most (R11). -/
theorem weekNumber_le {c : Calendar} (h : c.isReal = true) : c.weekNumber ≤ 53 := by
  obtain ⟨-, hm, hm', hd, hd', -⟩ := c.isReal_iff.mp h
  have hlt := daysBeforeMonth_add_lt hm hm' hd hd'
  rw [yearLength_eq] at hlt
  have hn : c.days - daysBeforeYear c.year ≤ 365 := by
    unfold Calendar.days
    split_ifs at hlt <;> omega
  unfold Calendar.weekNumber
  dsimp only
  split_ifs <;> omega

/-- Settles O14: the two views give each other back (`calendarView_toCount`, `toCount_calendarView`), and
the weekday and the week number are read off the days before the date. -/
theorem calendarRoundTrip : Obligations.CalendarRoundTrip := by
  refine ⟨fun c hc => ⟨c.toCount_le hc, calendarView_toCount hc⟩, fun n hn => ?_⟩
  have hreal := calendarView_isReal hn
  refine ⟨hreal, toCount_calendarView hn, ?_, ?_, weekNumber_le hreal⟩
  · rw [Calendar.weekday, calendarView_days hn]
    rfl
  · rw [january1_day]
    simp only [Calendar.weekNumber, weekdayOf, calendarView_days hn]

/-! ### The carries of an advance -/

/-- A date and time whose day may be one past the last of its month (R8). -/
def Calendar.DayCarries (c : Calendar) : Prop :=
  c.year ≤ 99 ∧ 1 ≤ c.month ∧ c.month ≤ 12 ∧ 1 ≤ c.day ∧ c.day ≤ monthLength c.year c.month + 1 ∧
    c.hour ≤ 23 ∧ c.minute ≤ 59 ∧ c.second ≤ 59 ∧ c.fraction ≤ 255

theorem monthLength_pos (y m : Nat) : 1 ≤ monthLength y m := by
  unfold monthLength
  split_ifs <;> decide

/-- The carry of the day does nothing, begins the next month, or begins the next year. -/
theorem carryDate_cases {c : Calendar} (hm : c.month ≤ 12) :
    (c.day ≤ monthLength c.year c.month ∧ carryDate c = c) ∨
    (monthLength c.year c.month < c.day ∧ c.month < 12 ∧
      carryDate c = { c with day := 1, month := c.month + 1 }) ∨
    (monthLength c.year c.month < c.day ∧ c.month = 12 ∧
      carryDate c = { c with day := 1, month := 1, year := c.year + 1 }) := by
  unfold carryDate
  rcases Nat.lt_or_ge (monthLength c.year c.month) c.day with hd | hd
  · right
    rcases Nat.lt_or_ge c.month 12 with h12 | h12
    · exact .inl ⟨hd, h12, by simp [hd, show ¬ 12 < c.month + 1 by omega]⟩
    · exact .inr ⟨hd, by omega, by simp [hd, show 12 < c.month + 1 by omega]⟩
  · exact .inl ⟨hd, by simp [show ¬ monthLength c.year c.month < c.day by omega,
      show ¬ 12 < c.month by omega]⟩

/-- Within the calendar, the carry of the day gives the real date with the same count. -/
theorem carryDate_real {c : Calendar} (h : c.DayCarries) (hdays : c.days < 36525) :
    (carryDate c).isReal = true ∧ (carryDate c).toCount = c.toCount := by
  obtain ⟨hy, hm, hm', hd, hd', htime⟩ := h
  have hmonth := daysBeforeMonth_succ c.year c.month hm
  rcases carryDate_cases hm' with ⟨hle, e⟩ | ⟨hgt, h12, e⟩ | ⟨hgt, h12, e⟩ <;> rw [e]
  · exact ⟨c.isReal_iff.mpr ⟨hy, hm, hm', hd, hle, htime⟩, rfl⟩
  · refine ⟨(Calendar.isReal_iff _).mpr ⟨hy, Nat.le_add_left _ _, h12, Nat.le_refl _,
      monthLength_pos _ _, htime⟩, ?_⟩
    simp only [Calendar.toCount, Calendar.days, Calendar.timeOfDay, hmonth]
    omega
  · have hnext : c.days = daysBeforeYear (c.year + 1) := by
      rw [h12, daysBeforeMonth_thirteen] at hmonth
      rw [daysBeforeYear_succ, Calendar.days, hmonth, h12]
      rw [h12] at hgt hd'
      omega
    have hyear : c.year + 1 ≤ 99 := by
      rw [hnext] at hdays
      unfold daysBeforeYear at hdays
      omega
    refine ⟨(Calendar.isReal_iff _).mpr ⟨hyear, Nat.le_refl _, show 1 ≤ 12 by decide, Nat.le_refl _,
      monthLength_pos _ _, htime⟩, ?_⟩
    rw [Calendar.toCount, Calendar.toCount, hnext]
    rfl

/-- The carries of R8 below the day. -/
def Calendar.carryTime (c : Calendar) : Calendar :=
  let c := if c.second > 59 then { c with second := 0, minute := c.minute + 1 } else c
  let c := if c.minute > 59 then { c with minute := 0, hour := c.hour + 1 } else c
  if c.hour > 23 then { c with hour := 0, day := c.day + 1 } else c

/-- An advance stays within its second, or carries into the next one. -/
theorem Calendar.advance_eq (c : Calendar) (amount : Nat) : c.advance amount =
    if c.fraction + amount ≤ 255 then { c with fraction := c.fraction + amount }
    else carryDate ({ c with fraction := c.fraction + amount - 256, second := c.second + 1 }).carryTime :=
  rfl

/-- The carries below the day of a second one too many leave at most the day to carry, and the count
as it is. -/
theorem Calendar.carryTime_spec {c : Calendar} (h : c.isReal = true) {fraction : Nat}
    (hf : fraction ≤ 255) :
    ({ c with fraction, second := c.second + 1 }).carryTime.DayCarries ∧
      ({ c with fraction, second := c.second + 1 }).carryTime.toCount =
        (c.days * 86400 + c.timeOfDay + 1) * 256 + fraction := by
  obtain ⟨hy, hm, hm', hd, hd', hh, hmi, hs, -⟩ := c.isReal_iff.mp h
  unfold Calendar.carryTime Calendar.DayCarries Calendar.toCount Calendar.days Calendar.timeOfDay
  by_cases h1 : c.second + 1 > 59
  · by_cases h2 : c.minute + 1 > 59
    · by_cases h3 : c.hour + 1 > 23
      · simp only [h1, h2, h3, if_true]; omega
      · simp only [h1, h2, h3, if_true, if_false]; omega
    · simp only [h1, h2, show ¬ c.hour > 23 by omega, if_true, if_false]; omega
  · simp only [h1, show ¬ c.minute > 59 by omega, show ¬ c.hour > 23 by omega, if_false]; omega

/-- An advance of a real date that stays within the epoch gives the real date of the advanced count. -/
theorem Calendar.advance_spec {c : Calendar} (h : c.isReal = true) {amount : Nat}
    (ha : amount ≤ 2) (hn : c.toCount + amount ≤ Config.lastInstant) :
    (c.advance amount).isReal = true ∧ (c.advance amount).toCount = c.toCount + amount := by
  rw [c.advance_eq]
  by_cases hf : c.fraction + amount ≤ 255
  · rw [if_pos hf]
    obtain ⟨hy, hm, hm', hd, hd', hh, hmi, hs, -⟩ := c.isReal_iff.mp h
    exact ⟨(Calendar.isReal_iff _).mpr ⟨hy, hm, hm', hd, hd', hh, hmi, hs, hf⟩,
      (Nat.add_assoc _ _ _).symm⟩
  · rw [if_neg hf]
    have hfraction := c.fraction_le h
    obtain ⟨hcarries, hcount⟩ := c.carryTime_spec h (fraction := c.fraction + amount - 256) (by omega)
    generalize ({ c with fraction := c.fraction + amount - 256, second := c.second + 1 } :
      Calendar).carryTime = c' at hcarries hcount ⊢
    have hsum : c'.toCount = c.toCount + amount := by
      rw [hcount]; unfold Calendar.toCount; omega
    have hdays : c'.days < 36525 := by
      rw [← hsum] at hn
      unfold Calendar.toCount Config.lastInstant at hn
      omega
    obtain ⟨hreal, hsame⟩ := carryDate_real hcarries hdays
    exact ⟨hreal, hsame.trans hsum⟩

/-- Settles O15: the advance of a calendar view is real and has the advanced count, and a real date is
the calendar view of its count. -/
theorem calendarCarriesFollowCount : Obligations.CalendarCarriesFollowCount := by
  intro n amount _ ha hn
  have hle : n ≤ Config.lastInstant := Nat.le_of_add_right_le hn
  have hcount := toCount_calendarView hle
  obtain ⟨hreal, hsum⟩ := Calendar.advance_spec (calendarView_isReal hle) ha (by rwa [hcount])
  rw [hcount] at hsum
  rw [← hsum, calendarView_toCount hreal]

end Sys2Proof.Machine
end

section
/-! PROOFS. The laws of the oscillator and the Timebase, which every step keeps. -/

namespace Sys2Proof.Machine

/-! ### A command's answer -/

/-- An outcome is a next state of which a predicate holds. -/
def Answers (P : State → Prop) (o : Host.Outcome State Fault Refusal) : Prop :=
  ∃ t, o = .next t ∧ P t

@[simp] theorem answers_next {P : State → Prop} {t : State} : Answers P (.next t) ↔ P t := by
  simp [Answers]

theorem Answers.imp {P Q : State → Prop} {o : Host.Outcome State Fault Refusal} (h : Answers P o)
    (hpq : ∀ t, P t → Q t) : Answers Q o := by
  obtain ⟨t, e, ht⟩ := h
  exact ⟨t, e, hpq t ht⟩

/-- A predicate that every command and the crystal cycle keep is kept by every step. The queue of
commands is of no account to it. -/
theorem keptByStep_of_exec {P : State → Prop} (hpending : ∀ s l, P s → P { s with pending := l })
    (hexec : ∀ c s, P s → Answers P (exec c s)) (hcycle : ∀ s, P s → P (crystalCycle s)) :
    KeptByStep P := by
  intro s s' hs h
  have hstep : Answers P (step s) := by
    unfold step
    split
    · exact hexec _ _ (hpending s _ hs)
    · split
      · exact hexec _ s hs
      · exact answers_next.mpr (hcycle s hs)
  rw [h] at hstep
  exact answers_next.mp hstep

/-! ### Gates that a request passes -/

section Gates

variable {P : State → Prop} {p : Port} {s : State}

/-- A request command answers what its owning block's act and the changes of its port keep. -/
theorem answers_request {f : Phase} {h : Header} {body : List Byte} {lengthOk gated : Bool}
    {act : State → State} (hport : ∀ (t : State) (g : PortCtl → PortCtl), P t → P (t.onPort p g))
    (hact : ∀ t, P t → P (act t)) (hs : P s) :
    Answers P (.next (request f p h body lengthOk gated act s)) :=
  answers_next.mpr (request_keeps hport hact hs)

/-- The check of the table's mode keeps what the act behind it and a refusal keep. -/
theorem whenNormal_keeps {act : State → State}
    (hport : ∀ (t : State) (g : PortCtl → PortCtl), P t → P (t.onPort p g))
    (hact : P s → P (act s)) (hs : P s) : P (whenNormal p act s) := by
  unfold whenNormal
  split
  · exact hact hs
  · exact hport _ _ hs

/-- The check of a handle keeps what the act behind it and a refusal keep. -/
theorem withCurrent_keeps {body : List Byte} {act : Handle → Entry → State → State}
    (hport : ∀ (t : State) (g : PortCtl → PortCtl), P t → P (t.onPort p g))
    (hact : ∀ n e, P s → P (act n e s)) (hs : P s) : P (withCurrent p body act s) := by
  unfold withCurrent
  split
  · exact hport _ _ hs
  · split
    · exact hport _ _ hs
    · exact hact _ _ hs

/-- The checks before a request of an entry's owner keep what the act behind them and a refusal keep. -/
theorem asOwner_keeps {body : List Byte} {act : Handle → Entry → State → State}
    (hport : ∀ (t : State) (g : PortCtl → PortCtl), P t → P (t.onPort p g))
    (hact : ∀ n e, P s → P (act n e s)) (hs : P s) : P (asOwner p body act s) := by
  refine whenNormal_keeps hport (withCurrent_keeps hport fun n e ht => ?_) hs
  split
  · exact hact n e ht
  · exact hport _ _ ht

/-- The lease gate keeps what the session-end claims it takes, the act behind it and a refusal keep. -/
theorem leaseGate_keeps {act : State → State}
    (hport : ∀ (t : State) (g : PortCtl → PortCtl), P t → P (t.onPort p g))
    (hsettle : P s → P (s.settleSessionEnds p)) (hact : ∀ t, P t → P (act t)) (hs : P s) :
    P (leaseGate p act s) := by
  unfold leaseGate
  dsimp only
  split
  · exact hact _ (hsettle hs)
  · exact hport _ _ (hsettle hs)

end Gates

/-- What one lease-end claim taken at the Timebase keeps, all those on their way keep. -/
theorem State.settleLeaseEnds_keeps {P : State → Prop} {s : State}
    (hends : ∀ t l, P t → P { t with transit := { t.transit with leaseEnds := l } })
    (htake : ∀ t m, P t → P (t.takeLeaseEnd m)) (hs : P s) : P s.settleLeaseEnds := by
  unfold State.settleLeaseEnds
  dsimp only
  generalize s.transit.leaseEnds = claims
  have h0 := hends s [] hs
  generalize ({ s with transit := { s.transit with leaseEnds := [] } } : State) = t at h0 ⊢
  induction claims generalizing t with
  | nil => exact h0
  | cons m rest ih => exact ih _ (htake t m h0)

/-! ### The clock: the prescaler and the Timebase -/

/-- The Oscillator and Prescaler together with the Timebase. -/
def State.clock (s : State) : Prescaler × Timebase := (s.osc, s.time)

theorem State.clock_eq_iff {s t : State} : t.clock = s.clock ↔ t.osc = s.osc ∧ t.time = s.time :=
  Prod.mk_inj

@[simp] theorem State.onPort_clock (s : State) (p : Port) (f : PortCtl → PortCtl) :
    (s.onPort p f).clock = s.clock := rfl

@[simp] theorem State.onQueue_clock (s : State) (p : Port) (f : NoticeQueue → NoticeQueue) :
    (s.onQueue p f).clock = s.clock := rfl

@[simp] theorem State.respond_clock (s : State) (p : Port) (body : List Byte) :
    (s.respond p body).clock = s.clock := rfl

@[simp] theorem State.handNotice_clock (s : State) (src : NoticeSource) (c : Content) (a : Address) :
    (s.handNotice src c a).clock = s.clock := rfl

@[simp] theorem State.handEnded_clock (s : State) (h : Handle) (e : Entry) (c : EndedCause) :
    (s.handEnded h e c).clock = s.clock := rfl

@[simp] theorem State.teardown_clock (s : State) (p : Port) (c : SessionEnd) :
    (s.teardown p c).clock = s.clock := rfl

@[simp] theorem State.resync_clock (s : State) (p : Port) : (s.resync p).clock = s.clock := rfl

@[simp] theorem State.freeSlot_clock (s : State) (i : SlotNo) : (s.freeSlot i).clock = s.clock := rfl

@[simp] theorem State.place_clock (s : State) (i : SlotNo) (e : Entry) (ref : Reference) :
    (s.place i e ref).clock = s.clock :=
  State.place_keeps (P := fun t => t.clock = s.clock) (fun _ _ h => h) (fun _ _ h => h)
    (fun _ _ h => h) (fun _ h => h) rfl

@[simp] theorem State.releaseEntries_clock (s : State) (p : Port) :
    (s.releaseEntries p).clock = s.clock :=
  State.releaseEntries_keeps (P := fun t => t.clock = s.clock) (fun _ _ h => h) rfl

@[simp] theorem State.endLease_clock (s : State) (cause : Option LeaseCause) :
    (s.endLease cause).clock = s.clock := by rw [s.endLease_frame]; rfl

@[simp] theorem State.takeSessionEnd_clock (s : State) (p : Port) :
    (s.takeSessionEnd p).clock = s.clock := by
  unfold State.takeSessionEnd
  split
  · exact s.endLease_clock _
  · rfl

@[simp] theorem State.settleSessionEnds_clock (s : State) (p : Port) :
    (s.settleSessionEnds p).clock = s.clock := by rw [s.settleSessionEnds_frame]; rfl

@[simp] theorem State.handWake_clock (s : State) (wake : Bool) : (s.handWake wake).clock = s.clock := by
  cases wake <;> rfl

@[simp] theorem State.sampleRdy_clock (s : State) (p : Port) (rdy : Bool) :
    (s.sampleRdy p rdy).clock = s.clock := by
  unfold State.sampleRdy; split <;> rfl

/-- A change of an input leaves the clock alone, whether it holds or starts the port domain. -/
@[simp] theorem State.inputs_clock (s : State) (pf rst good : Bool) (straps : Straps) :
    (s.inputs pf rst good straps).clock = s.clock := by
  rcases s.inputs_cases pf rst good straps with ⟨-, -, h⟩ | ⟨-, -, h⟩ | ⟨-, -, h⟩ | ⟨-, -, h⟩ <;> rw [h]
  · exact State.endLease_clock _ _
  all_goals rfl

/-! ### Acts of requests that leave the clock alone -/

theorem openAct_clock (p : Port) (body : List Byte) (s : State) : (openAct p body s).clock = s.clock := by
  unfold openAct
  split
  · rfl
  · dsimp only
    rw [State.respond_clock, State.onPort_clock, State.resync_clock]
    split <;> rfl

theorem kickAct_clock (p : Port) (h : Header) (body : List Byte) (s : State) :
    (kickAct p h body s).clock = s.clock := by
  unfold kickAct
  split
  · rfl
  · split
    · rfl
    · split <;> rfl

theorem acquireAct_clock (p : Port) (body : List Byte) (s : State) :
    (acquireAct p body s).clock = s.clock := by
  refine Eq.trans ?_ (s.settleSessionEnds_clock p)
  unfold acquireAct
  dsimp only
  split
  · rfl
  · split
    · rfl
    · split <;> rfl

theorem renewAct_clock (p : Port) (body : List Byte) (s : State) :
    (renewAct p body s).clock = s.clock := by
  unfold renewAct; dsimp only; split <;> rfl

theorem breakLeaseAct_clock (p : Port) (s : State) : (breakLeaseAct p s).clock = s.clock := by
  refine Eq.trans ?_ (s.settleSessionEnds_clock p)
  unfold breakLeaseAct
  dsimp only
  split
  · rfl
  · split
    · rfl
    · exact State.endLease_clock _ _

theorem createAct_clock (p : Port) (body : List Byte) (s : State) :
    (createAct p body s).clock = s.clock := by
  refine whenNormal_keeps (P := fun t => t.clock = s.clock) (fun _ _ h => h) (fun _ => ?_) rfl
  split
  · rfl
  · split
    · rfl
    · split
      · rfl
      · exact State.place_clock _ _ _ _

theorem armEntry_clock (p : Port) (body : List Byte) (n : Handle) (e : Entry) (s : State) :
    (armEntry p body n e s).clock = s.clock := by
  unfold armEntry
  split
  · rfl
  · split
    · rfl
    · split
      · rfl
      · dsimp only
        split
        · exact State.place_clock _ _ _ _
        · rfl

theorem suspendEntry_clock (p : Port) (n : Handle) (e : Entry) (s : State) :
    (suspendEntry p n e s).clock = s.clock := by
  unfold suspendEntry
  split
  · rfl
  · exact State.place_clock _ _ _ _

theorem resumeEntry_clock (p : Port) (n : Handle) (e : Entry) (s : State) :
    (resumeEntry p n e s).clock = s.clock := by
  unfold resumeEntry
  split
  · rfl
  · split
    · rfl
    · exact State.place_clock _ _ _ _

theorem queryEntry_clock (p : Port) (body : List Byte) (n : Handle) (e : Entry) (s : State) :
    (queryEntry p body n e s).clock = s.clock := by
  unfold queryEntry; split <;> rfl

theorem listAct_clock (p : Port) (body : List Byte) (s : State) : (listAct p body s).clock = s.clock := by
  refine whenNormal_keeps (P := fun t => t.clock = s.clock) (fun _ _ h => h) (fun _ => ?_) rfl
  dsimp only
  split
  · rfl
  · split <;> rfl

theorem setQuotaAct_clock (p : Port) (body : List Byte) (s : State) :
    (setQuotaAct p body s).clock = s.clock := by
  refine whenNormal_keeps (P := fun t => t.clock = s.clock) (fun _ _ h => h) (fun _ => ?_) rfl
  dsimp only
  split
  · rfl
  · split
    · rfl
    · repeat' split
      all_goals rfl

theorem purgeEntry_clock (p : Port) (n : Handle) (e : Entry) (s : State) :
    (purgeEntry p n e s).clock = s.clock := by
  unfold purgeEntry; split <;> simp

/-! ### Events that leave the clock alone -/

theorem kickVerdict_clock (k : KickMsg) (body : List Byte) (s : State) :
    (kickVerdict k body s).clock = s.clock := by
  unfold kickVerdict; split <;> rfl

theorem portSecond_clock (p : Port) (s : State) : (portSecond p s).clock = s.clock := by
  unfold portSecond
  dsimp only
  split
  · split <;> rfl
  · rfl

theorem leaseSecond_clock (s : State) : (leaseSecond s).clock = s.clock := by
  unfold leaseSecond
  split
  · split
    · rfl
    · split
      · exact s.endLease_clock _
      · rfl
  · rfl

theorem takeAck_clock (p : Port) (seq : Fin 16) (s : State) : (takeAck p seq s).clock = s.clock := by
  unfold takeAck
  split
  · split <;> rfl
  · rfl

theorem lookAt_clock (m : LookMsg) (s : State) : (lookAt m s).clock = s.clock := by
  unfold lookAt
  cases m <;> (dsimp only; split <;> rfl)

theorem applyFiring_clock (c : FiringClaim) (e : Entry) (s : State) :
    (applyFiring c e s).clock = s.clock := by
  unfold applyFiring
  dsimp only
  split <;> simp

theorem applyResult_clock (c : ResultClaim) (e : Entry) (s : State) :
    (applyResult c e s).clock = s.clock := by
  unfold applyResult; split <;> simp

theorem visitEntry_clock (r : Rescan) (i : SlotNo) (e : Entry) (s : State) :
    (visitEntry r i e s).clock = s.clock := by
  rcases visitEntry_cases r i e s with ⟨st, ref, h⟩ | h | h <;> rw [h]
  · exact State.place_clock _ _ _ _
  · rfl

theorem placeFor_foldl_clock (content : Content) (set : PortSet) (l : List Port) (s : State) :
    (l.foldl (placeFor content set) s).clock = s.clock := by
  induction l generalizing s with
  | nil => rfl
  | cons p rest ih =>
    refine (ih _).trans ?_
    unfold placeFor
    split <;> rfl

theorem releaseEntries_foldl_clock (l : List Port) (s : State) :
    (l.foldl State.releaseEntries s).clock = s.clock := by
  induction l generalizing s with
  | nil => rfl
  | cons p rest ih => rw [List.foldl_cons, ih, State.releaseEntries_clock]

theorem epochEndSlot_foldl_clock (l : List SlotNo) (s : State) :
    (l.foldl epochEndSlot s).clock = s.clock := by
  refine epochEnd_keeps (P := fun t => t.clock = s.clock) (fun t i e _ _ ht => ?_) rfl l
  rw [State.handEnded_clock, State.place_clock]
  exact ht

/-- A command answers a next state with the clock as it was. -/
abbrev LeavesClock (s : State) (o : Host.Outcome State Fault Refusal) : Prop :=
  Answers (fun t => t.clock = s.clock) o

theorem execKickAtNamedPort_clock (q : Port) (s : State) : LeavesClock s (execKickAtNamedPort q s) := by
  refine answers_next.mpr ?_
  split
  · rfl
  · dsimp only
    split <;> rw [kickVerdict_clock] <;> rfl

theorem execUnknownRequest_clock (p : Port) (h : Header) (body : List Byte) (s : State) :
    LeavesClock s (execUnknownRequest p h body s) := by
  refine answers_next.mpr ?_
  split
  · exact serve_keeps (P := fun t => t.clock = s.clock) (fun _ _ ht => ht) (fun _ ht => ht) rfl
  · rfl

theorem execOverrun_clock (p : Port) (h : Header) (body : List Byte) (s : State) :
    LeavesClock s (execOverrun p h body s) := by
  refine answers_next.mpr ?_
  split
  · exact serve_keeps (P := fun t => t.clock = s.clock) (fun _ _ ht => ht) (fun _ ht => ht) rfl
  · rfl

theorem execAck_clock (p : Port) (h : Header) (body : List Byte) (s : State) :
    LeavesClock s (execAck p h body s) := by
  refine answers_next.mpr ?_
  split
  · rfl
  · split
    · rfl
    · exact takeAck_clock p h.seq (acceptOther p (frameBytes .ack h body) s)

theorem execUnusedFrame_clock (p : Port) (cls : UnusedClass) (h : Header) (body : List Byte) (s : State) :
    LeavesClock s (execUnusedFrame p cls h body s) := by
  refine answers_next.mpr ?_
  split
  · rfl
  · split <;> rfl

theorem execReceiveError_clock (p : Port) (chars : List RxChar) (s : State) :
    LeavesClock s (execReceiveError p chars s) := by
  refine answers_next.mpr ?_
  split <;> rfl

theorem execFrameHeader_clock (p : Port) (data : Byte) (s : State) :
    LeavesClock s (execFrameHeader p data s) := by
  refine answers_next.mpr ?_
  split <;> rfl

theorem execGap_clock (p : Port) (s : State) : LeavesClock s (execGap p s) := by
  refine answers_next.mpr ?_
  split
  · split <;> rfl
  · rfl

theorem execBreak_clock (p : Port) (s : State) : LeavesClock s (execBreak p s) := by
  refine answers_next.mpr ?_
  split
  · dsimp only
    split <;> rfl
  · rfl

theorem execReturnToMarking_clock (p : Port) (s : State) :
    LeavesClock s (execReturnToMarking p s) := by
  refine answers_next.mpr ?_
  split <;> rfl

theorem execResponseFrameStart_clock (p : Port) (rdy : Bool) (s : State) :
    LeavesClock s (execResponseFrameStart p rdy s) := by
  refine answers_next.mpr ?_
  split <;> exact s.sampleRdy_clock p _

theorem execNoticeFrameStart_clock (p : Port) (rdy : Bool) (s : State) :
    LeavesClock s (execNoticeFrameStart p rdy s) := by
  refine answers_next.mpr ?_
  split <;> exact s.sampleRdy_clock p _

theorem execResendFrameStart_clock (p : Port) (rdy : Bool) (s : State) :
    LeavesClock s (execResendFrameStart p rdy s) := by
  refine answers_next.mpr ?_
  split <;> exact s.sampleRdy_clock p _

theorem execNoticeFrameEnd_clock (p : Port) (s : State) : LeavesClock s (execNoticeFrameEnd p s) := by
  refine answers_next.mpr ?_
  split <;> rfl

theorem execEndOfService_clock (p : Port) (s : State) : LeavesClock s (execEndOfService p s) := by
  refine answers_next.mpr ?_
  split <;> rfl

theorem execOscillatorSecond_clock (sink : SecondSink) (s : State) :
    LeavesClock s (execOscillatorSecond sink s) := by
  refine answers_next.mpr ?_
  cases sink with
  | lease => exact leaseSecond_clock (takeLeaseSecondMark s)
  | port p => exact portSecond_clock p (takePortSecondMark p s)

theorem execLeaseExpiry_clock (s : State) : LeavesClock s (execLeaseExpiry s) := by
  refine answers_next.mpr ?_
  split
  · exact leaseSecond_clock (takeLeaseSecondMark s)
  · rfl

theorem execKeepaliveTimeout_clock (p : Port) (s : State) : LeavesClock s (execKeepaliveTimeout p s) := by
  refine answers_next.mpr ?_
  split
  · exact portSecond_clock p (takePortSecondMark p s)
  · rfl

theorem execTenMsTick_clock (s : State) : LeavesClock s (execTenMsTick s) := by
  refine answers_next.mpr ?_
  split <;> rfl

theorem execAckTimeout_clock (p : Port) (s : State) : LeavesClock s (execAckTimeout p s) := by
  refine answers_next.mpr ?_
  split
  · split <;> rfl
  · rfl

theorem execLook_clock (src : LookSource) (s : State) : LeavesClock s (execLook src s) := by
  refine answers_next.mpr ?_
  split
  · rfl
  · exact lookAt_clock _ _

theorem execFiringClaim_clock (s : State) : LeavesClock s (execFiringClaim s) := by
  refine answers_next.mpr ?_
  split
  · rfl
  · dsimp only
    split
    · rfl
    · split
      · exact applyFiring_clock _ _ _
      · rfl

theorem execWakeRequest_clock (s : State) : LeavesClock s (execWakeRequest s) := by
  refine answers_next.mpr ?_
  split <;> rfl

theorem execNoticeTaken_clock (src : NoticeSource) (s : State) : LeavesClock s (execNoticeTaken src s) := by
  refine answers_next.mpr ?_
  split
  · rfl
  · exact placeFor_foldl_clock _ _ _ _

theorem execSearchRunComplete_clock (s : State) : LeavesClock s (execSearchRunComplete s) := by
  refine answers_next.mpr ?_
  split
  · split <;> rfl
  · rfl

theorem execResultClaim_clock (s : State) : LeavesClock s (execResultClaim s) := by
  refine answers_next.mpr ?_
  split
  · rfl
  · dsimp only
    split
    · rfl
    · split
      · exact applyResult_clock _ _ _
      · rfl

theorem execStepClaim_clock (s : State) : LeavesClock s (execStepClaim s) := by
  refine answers_next.mpr ?_
  split
  · rfl
  · split
    · rfl
    · split <;> rfl

theorem execRescanVisit_clock (s : State) : LeavesClock s (execRescanVisit s) := by
  refine answers_next.mpr ?_
  split
  · rfl
  · split
    · dsimp only
      split
      · exact visitEntry_clock _ _ _ s
      · rfl
    · rfl

theorem execRescanEnd_clock (s : State) : LeavesClock s (execRescanEnd s) := by
  refine answers_next.mpr ?_
  split
  · rfl
  · split
    · have h := releaseEntries_foldl_clock s.table.heldReleases s.looksLost
      dsimp only
      generalize s.table.heldReleases.foldl State.releaseEntries s.looksLost = t at h ⊢
      exact h
    · rfl

theorem execEpochEndClaim_clock (s : State) : LeavesClock s (execEpochEndClaim s) := by
  refine answers_next.mpr ?_
  split
  · rfl
  · split
    · rfl
    · exact epochEndSlot_foldl_clock _ _

theorem execSessionEndClaim_clock (p : Port) (s : State) : LeavesClock s (execSessionEndClaim p s) := by
  refine answers_next.mpr ?_
  split
  · exact State.takeSessionEnd_clock _ p
  · rfl

theorem execReleaseClaim_clock (p : Port) (s : State) : LeavesClock s (execReleaseClaim p s) := by
  refine answers_next.mpr ?_
  split
  · dsimp only
    split
    · exact State.releaseEntries_clock _ p
    · rfl
  · rfl

theorem execPf_clock (asserted : Bool) (straps : Straps) (point : PinPoint) (s : State) :
    LeavesClock s (execPf asserted straps s point) := by
  refine answers_next.mpr ?_
  cases point with
  | filtered => exact State.inputs_clock _ _ _ _ _
  | pin => rfl

theorem execRst_clock (asserted : Bool) (straps : Straps) (point : PinPoint) (s : State) :
    LeavesClock s (execRst asserted straps s point) := by
  refine answers_next.mpr ?_
  cases point with
  | filtered => exact State.inputs_clock _ _ _ _ _
  | pin => rfl

end Sys2Proof.Machine
end

section
/-! PROOFS. Every step keeps the laws of the oscillator and the Timebase (O5). -/

namespace Sys2Proof.Machine

/-! ### The laws over the clock -/

/-- The ranges of the prescaler with the laws of the Timebase. -/
def ClockLaws (s : State) : Prop := PrescalerInRange s ∧ TimebaseLaw s

theorem PrescalerInRange.of_osc {s t : State} (hs : PrescalerInRange s) (h : t.osc = s.osc) :
    PrescalerInRange t := by
  obtain ⟨h1, h2, h3, h4, h5, h6, h7⟩ := hs
  constructor <;> rw [h] <;> assumption

theorem TimebaseLaw.of_time {s t : State} (hs : TimebaseLaw s) (h : t.time = s.time) :
    TimebaseLaw t := by
  obtain ⟨h1, h2, h3, h4⟩ := hs
  constructor <;> rw [h] <;> assumption

/-- The laws speak of the clock alone. -/
theorem ClockLaws.of_clock {s t : State} (hs : ClockLaws s) (h : t.clock = s.clock) : ClockLaws t := by
  obtain ⟨hosc, htime⟩ := State.clock_eq_iff.mp h
  exact ⟨hs.1.of_osc hosc, hs.2.of_time htime⟩

theorem ClockLaws.onPort (t : State) (p : Port) (g : PortCtl → PortCtl) (h : ClockLaws t) :
    ClockLaws (t.onPort p g) := h.of_clock rfl

/-- The law of the Timebase once the commit slot is emptied. -/
theorem TimebaseLaw.emptySlot {s t : State} (hs : TimebaseLaw s)
    (h : t.time = { s.time with slot := .empty }) : TimebaseLaw t := by
  obtain ⟨hinstant, hslew, -, hidle⟩ := hs
  constructor <;> rw [h]
  · exact hinstant
  · exact hslew
  · trivial
  · exact hidle

/-- The law of the Timebase while no slew runs. -/
theorem TimebaseLaw.of_idle {t : State} (hinstant : t.time.instant ≤ Config.lastInstant)
    (hslew : t.time.slew = .idle) (hslot : CommitSlotLaw t.time.slot) : TimebaseLaw t :=
  ⟨hinstant, by rw [hslew]; trivial, hslot, fun _ => hslew⟩

/-! ### The claims a request takes on its way -/

theorem ClockLaws.takeLeaseEnd (s : State) (m : LeaseEndMsg) (hs : ClockLaws s) :
    ClockLaws (s.takeLeaseEnd m) := by
  rw [s.takeLeaseEnd_frame m]
  exact ⟨hs.1.of_osc rfl, hs.2.emptySlot rfl⟩

theorem ClockLaws.settleLeaseEnds {s : State} (hs : ClockLaws s) : ClockLaws s.settleLeaseEnds :=
  State.settleLeaseEnds_keeps (fun _ _ h => h.of_clock rfl) ClockLaws.takeLeaseEnd hs

theorem ClockLaws.leaseGate {p : Port} {act : State → State}
    (hact : ∀ t, ClockLaws t → ClockLaws (act t)) (s : State) (hs : ClockLaws s) :
    ClockLaws (leaseGate p act s) :=
  leaseGate_keeps (fun t => ClockLaws.onPort t p) (fun h => h.of_clock (s.settleSessionEnds_clock p))
    hact hs

theorem ClockLaws.throughGate {p : Port} {act : State → State}
    (hact : ∀ t, ClockLaws t → ClockLaws (act t)) (s : State) (hs : ClockLaws s) :
    ClockLaws (throughGate p act s) :=
  ClockLaws.leaseGate (fun t ht => hact t.settleLeaseEnds ht.settleLeaseEnds) s hs

/-! ### Setting the time -/

/-- A step to a count within the epoch (R114, R117). -/
theorem ClockLaws.stepTime {s : State} {fromAdvance : Bool} {instant : Nat} {delta : Int}
    (hi : instant ≤ Config.lastInstant) (hs : ClockLaws s) :
    ClockLaws (s.stepTime fromAdvance instant delta) :=
  ⟨hs.1.of_osc rfl, TimebaseLaw.of_idle hi rfl trivial⟩

/-- The whole second of a count within the epoch is a whole second of the epoch. -/
theorem commitSlotLaw_wholeSecond {n : Nat} (hn : n ≤ Config.lastInstant) (p : Port) :
    CommitSlotLaw (.pending (n / 256 * 256) p) := by
  refine ⟨?_, Nat.mul_mod_left _ _⟩
  unfold Config.lastInstant at hn
  unfold Config.lastSecond
  omega

/-- A commit that passes the checks of R113 stages a real date; a slew finds the time VALID and lies
within the limit. -/
theorem commitCheck_ok {p : Port} {body : List Byte} {s : State} {mode : CommitMode} {staged : Nat}
    (h : commitCheck p body s = .ok (mode, staged)) :
    staged ≤ Config.lastInstant ∧
      (mode = .slew → s.time.valid = true ∧
        ((staged : Int) - s.time.instant).natAbs ≤ Config.slewLimit) := by
  unfold commitCheck at h
  split at h
  · cases h
  · split at h
    · cases h
    · split at h
      · cases h
      · split at h
        · cases h
        · split at h
          · cases h
          · split at h
            · cases h
            · rename_i c _ hreal hvalid hlimit
              cases h
              refine ⟨c.toCount_le (by simpa using hreal), fun hm => ⟨?_, ?_⟩⟩
              · simpa [hm] using hvalid
              · simpa [hm] using hlimit

/-- A commit that has passed its checks. -/
theorem ClockLaws.commitEffect {p : Port} {mode : CommitMode} {staged : Nat} {s : State}
    (hstaged : staged ≤ Config.lastInstant)
    (hslew : mode = .slew → s.time.valid = true ∧
      ((staged : Int) - s.time.instant).natAbs ≤ Config.slewLimit)
    (hs : ClockLaws s) : ClockLaws (commitEffect p mode staged s).1 := by
  obtain ⟨hosc, hinstant, hs', hslot, hidle⟩ := hs
  cases mode with
  | step => exact ClockLaws.stepTime hstaged ⟨hosc, hinstant, hs', hslot, hidle⟩
  | onSecond =>
    exact ⟨hosc.of_osc rfl, hinstant, hs', commitSlotLaw_wholeSecond hstaged p, hidle⟩
  | slew =>
    obtain ⟨hvalid, hlimit⟩ := hslew rfl
    unfold Machine.commitEffect
    dsimp only
    split
    · exact ⟨hosc.of_osc rfl, TimebaseLaw.of_idle hinstant rfl trivial⟩
    · rename_i hne
      refine ⟨hosc.of_osc rfl, hinstant, ⟨hne, hlimit, by decide⟩, trivial, fun hv => ?_⟩
      exact absurd hv (by simp [hvalid])

theorem ClockLaws.commitAct {p : Port} {body : List Byte} (s : State) (hs : ClockLaws s) :
    ClockLaws (commitAct p body s) := by
  unfold Machine.commitAct
  split
  · exact hs.of_clock rfl
  · rename_i mode staged hok
    obtain ⟨hstaged, hslew⟩ := commitCheck_ok hok
    exact (ClockLaws.commitEffect hstaged hslew hs).of_clock rfl

theorem ClockLaws.cancelAct {p : Port} (s : State) (hs : ClockLaws s) : ClockLaws (cancelAct p s) :=
  ⟨hs.1.of_osc rfl, TimebaseLaw.of_idle hs.2.instant rfl trivial⟩

/-- SET_TRIM refuses a trim out of range (R123). -/
theorem ClockLaws.setTrimAct {p : Port} {body : List Byte} (s : State) (hs : ClockLaws s) :
    ClockLaws (setTrimAct p body s) := by
  unfold Machine.setTrimAct
  dsimp only
  split
  · rename_i hrange
    obtain ⟨⟨hresidue, hskip, hwindow, htrim, -, hsecond, htick⟩, htime⟩ := hs
    exact ⟨⟨hresidue, hskip, hwindow, htrim, hrange, hsecond, htick⟩, htime.of_time rfl⟩
  · exact hs.of_clock rfl

/-! ### The advance, the window start and the crystal cycle -/

/-- What a slew makes of an advance: an ordinary one, with no slew or short of its 64th advance, or at
the 64th a gained or a held one, which brings R nearer to 0 (R7, R120). -/
theorem Slew.advance_cases (x : Slew) :
    (x = .idle ∧ x.advance = ⟨1, .idle, false⟩) ∨
    (∃ r phase, x = .active r phase ∧ phase < 63 ∧ x.advance = ⟨1, .active r (phase + 1), false⟩) ∨
    (∃ r phase, x = .active r phase ∧ 63 ≤ phase ∧ 0 < r ∧
      x.advance = ⟨2, if r = 1 then .idle else .active (r - 1) 0, decide (r = 1)⟩) ∨
    (∃ r phase, x = .active r phase ∧ 63 ≤ phase ∧ r ≤ 0 ∧
      x.advance = ⟨0, if r = -1 then .idle else .active (r + 1) 0, decide (r = -1)⟩) := by
  cases x with
  | idle => exact .inl ⟨rfl, rfl⟩
  | active r phase =>
    rcases Nat.lt_or_ge phase 63 with hp | hp
    · exact .inr (.inl ⟨r, phase, rfl, hp, by simp [Slew.advance, hp]⟩)
    · have hp' : ¬ phase + 1 < 64 := by omega
      rcases lt_or_ge 0 r with hr | hr
      · have hzero : r - 1 = 0 ↔ r = 1 := by omega
        exact .inr (.inr (.inl ⟨r, phase, rfl, hp, hr, by simp [Slew.advance, hp', hr, hzero, beq_eq_decide]⟩))
      · have hr' : ¬ 0 < r := by omega
        have hzero : r + 1 = 0 ↔ r = -1 := by omega
        exact .inr (.inr (.inr ⟨r, phase, rfl, hp, hr, by simp [Slew.advance, hp', hr', hzero, beq_eq_decide]⟩))

/-- What the slew state makes of an advance obeys its law. -/
theorem SlewLaw.advance {x : Slew} (h : SlewLaw x) : SlewLaw x.advance.slew := by
  rcases x.advance_cases with ⟨rfl, e⟩ | ⟨r, phase, rfl, hp, e⟩ | ⟨r, phase, rfl, hp, hr, e⟩ |
    ⟨r, phase, rfl, hp, hr, e⟩ <;> rw [e]
  · trivial
  · obtain ⟨hne, hlimit, -⟩ := h
    exact ⟨hne, hlimit, Nat.succ_lt_succ hp⟩
  all_goals
    obtain ⟨hne, hlimit, -⟩ := h
    dsimp only
    split
    · trivial
    · refine ⟨by omega, ?_, by decide⟩
      unfold Config.slewLimit at hlimit ⊢
      omega

theorem Slew.advance_amount_le (x : Slew) : x.advance.amount ≤ 2 := by
  rcases x.advance_cases with ⟨-, e⟩ | ⟨r, phase, -, -, e⟩ | ⟨r, phase, -, -, -, e⟩ |
    ⟨r, phase, -, -, -, e⟩ <;> simp [e]

/-- Moving the instant writes it with the slew, and hands things on. -/
@[simp] theorem moveInstant_clock (a : Advance) (s : State) : (moveInstant a s).clock =
    (s.osc, { s.time with instant := s.time.instant + a.amount, slew := a.slew }) := by
  unfold moveInstant
  dsimp only
  cases a.done <;> (split <;> rfl)

/-- An advance that stays within the epoch. -/
theorem ClockLaws.moveInstant {s : State} (hs : ClockLaws s)
    (hi : s.time.instant + s.time.slew.advance.amount ≤ Config.lastInstant) :
    ClockLaws (moveInstant s.time.slew.advance s) := by
  obtain ⟨hosc, -, hslew, hslot, hidle⟩ := hs
  obtain ⟨ho, ht⟩ := Prod.mk_inj.mp (moveInstant_clock s.time.slew.advance s)
  refine ⟨hosc.of_osc ho, ?_, ?_, ?_, ?_⟩ <;> rw [ht]
  · exact hi
  · exact hslew.advance
  · exact hslot
  · intro hv
    show s.time.slew.advance.slew = .idle
    rw [hidle hv]; rfl

theorem lastSecond_le_lastInstant : Config.lastSecond ≤ Config.lastInstant := by
  norm_num [Config.lastSecond, Config.lastInstant]

/-- The second of an instant within the epoch ends within the epoch. -/
theorem le_lastInstant_of_stays {i a : Nat} (hi : i ≤ Config.lastInstant)
    (h : ¬ leavesSecond i a = true) : i + a ≤ Config.lastInstant := by
  unfold leavesSecond at h
  unfold Config.lastInstant at *
  simp only [decide_eq_true_eq] at h
  omega

/-- What an advance makes of the Timebase, by its three outcomes. -/
theorem takeAdvance_cases (s : State) :
    let a := s.time.slew.advance
    (∃ second p, s.time.slot = .pending second p ∧ leavesSecond s.time.instant a.amount = true ∧
      takeAdvance s = s.stepTime true second
        (if s.time.valid then (second : Int) - ((s.time.instant / 256 + 1) * 256 : Nat) else 0)) ∨
    (s.time.slot = .empty ∧ leavesSecond s.time.instant a.amount = true ∧
      Config.lastSecond ≤ s.time.instant ∧ takeAdvance s = epochEnd s) ∨
    ((¬ leavesSecond s.time.instant a.amount = true ∨
        s.time.slot = .empty ∧ s.time.instant < Config.lastSecond) ∧
      takeAdvance s = moveInstant a s) := by
  unfold takeAdvance
  by_cases hl : leavesSecond s.time.instant s.time.slew.advance.amount = true
  · cases hs : s.time.slot with
    | pending second p => exact .inl ⟨second, p, by simp [hl]⟩
    | empty =>
      by_cases he : Config.lastSecond ≤ s.time.instant
      · exact .inr (.inl (by simp [hl, he]))
      · exact .inr (.inr (by simp [hl, he, Nat.lt_of_not_le he]))
  · exact .inr (.inr (by simp [hl]))

theorem ClockLaws.takeAdvance {s : State} (hs : ClockLaws s) : ClockLaws (takeAdvance s) := by
  rcases takeAdvance_cases s with ⟨second, p, hslot, -, e⟩ | ⟨hslot, -, -, e⟩ | ⟨hmove, e⟩ <;> rw [e]
  · have hsecond := hs.2.slot
    rw [hslot] at hsecond
    exact ClockLaws.stepTime (hsecond.1.trans lastSecond_le_lastInstant) hs
  · refine ⟨hs.1.of_osc rfl, TimebaseLaw.of_idle (Nat.zero_le _) rfl ?_⟩
    show CommitSlotLaw s.time.slot
    rw [hslot]; trivial
  · refine hs.moveInstant ?_
    rcases hmove with hstays | ⟨-, hlt⟩
    · exact le_lastInstant_of_stays hs.2.instant hstays
    · have hle := s.time.slew.advance_amount_le
      unfold Config.lastSecond at hlt
      unfold Config.lastInstant
      omega

theorem ClockLaws.countAdvance {s : State} (hs : ClockLaws s) : ClockLaws (countAdvance s) := by
  obtain ⟨⟨hresidue, hskip, hwindow, htrim, hpending, -, htick⟩, htime⟩ := hs
  unfold Machine.countAdvance
  dsimp only
  split
  · exact ⟨⟨hresidue, hskip, hwindow, htrim, hpending, ‹_›, htick⟩, htime.of_time rfl⟩
  · exact ⟨⟨hresidue, hskip, hwindow, htrim, hpending, show 0 < 256 by decide, htick⟩, htime.of_time rfl⟩

/-- A window start copies the pending trim and adds what a negative one gives to the residue, of which
128 make an advance (R2, R3). -/
theorem Prescaler.windowStart_cases (o : Prescaler) :
    let sum := o.residue + (-o.pendingTrim).toNat
    (sum < 128 ∧ o.windowStart = ({ o with
      windowPos := 0, trim := o.pendingTrim, skip := o.pendingTrim.toNat, residue := sum }, 0)) ∨
    (128 ≤ sum ∧ o.windowStart = ({ o with
      windowPos := 0, trim := o.pendingTrim, skip := o.pendingTrim.toNat, residue := sum - 128 }, 1)) := by
  unfold Prescaler.windowStart
  rcases Nat.lt_or_ge (o.residue + (-o.pendingTrim).toNat) 128 with h | h
  · exact .inl ⟨h, by simp [h]⟩
  · exact .inr ⟨h, by simp [Nat.not_lt.mpr h]⟩

theorem ClockLaws.trimWindowStart {s : State} (hs : ClockLaws s) :
    Answers ClockLaws (execTrimWindowStart s) := by
  obtain ⟨⟨hresidue, -, -, -, hpending, hsecond, htick⟩, htime⟩ := hs
  have hskip : s.osc.pendingTrim.toNat ≤ 127 := by omega
  have hwindow : 0 < Config.windowCycles := by decide
  unfold execTrimWindowStart
  rcases s.osc.windowStart_cases with ⟨hsum, e⟩ | ⟨hsum, e⟩ <;>
    refine answers_next.mpr ⟨?_, htime.of_time rfl⟩ <;> rw [e]
  · exact ⟨hsum, hskip, hwindow, hpending, hpending, hsecond, htick⟩
  · refine ⟨?_, hskip, hwindow, hpending, hpending, hsecond, htick⟩
    dsimp only
    omega

/-- A crystal cycle is left out by a positive trim, is counted, or completes an advance (R1, R2). -/
theorem Prescaler.countCycle_cases (o : Prescaler) :
    (0 < o.skip ∧ o.countCycle = ({ o with skip := o.skip - 1 }, 0)) ∨
    (o.skip = 0 ∧ o.residue + 1 < 128 ∧ o.countCycle = ({ o with residue := o.residue + 1 }, 0)) ∨
    (o.skip = 0 ∧ 128 ≤ o.residue + 1 ∧ o.countCycle = ({ o with residue := 0 }, 1)) := by
  unfold Prescaler.countCycle
  rcases Nat.eq_zero_or_pos o.skip with h0 | h0
  · rcases Nat.lt_or_ge (o.residue + 1) 128 with h | h
    · exact .inr (.inl ⟨h0, h, by simp [h0, h]⟩)
    · exact .inr (.inr ⟨h0, h, by simp [h0, Nat.not_lt.mpr h]⟩)
  · exact .inl ⟨h0, by simp [h0]⟩

theorem ClockLaws.crystalCycle (s : State) (hs : ClockLaws s) : ClockLaws (crystalCycle s) := by
  obtain ⟨⟨hresidue, hskip, -, htrim, hpending, hsecond, -⟩, htime⟩ := hs
  refine ⟨?_, htime.of_time rfl⟩
  have hwindow (n : Nat) : n % Config.windowCycles < Config.windowCycles := Nat.mod_lt _ (by decide)
  have htick (n : Nat) : n % Config.tickGroupCycles < Config.tickGroupCycles := Nat.mod_lt _ (by decide)
  unfold Machine.crystalCycle
  rcases s.osc.countCycle_cases with ⟨-, e⟩ | ⟨-, hlt, e⟩ | ⟨-, -, e⟩ <;> rw [e]
  · exact ⟨hresidue, (Nat.sub_le _ _).trans hskip, hwindow _, htrim, hpending, hsecond, htick _⟩
  · exact ⟨hlt, hskip, hwindow _, htrim, hpending, hsecond, htick _⟩
  · exact ⟨show 0 < 128 by decide, hskip, hwindow _, htrim, hpending, hsecond, htick _⟩

/-! ### Every command and every step -/

/-- A request whose owning block's act leaves the clock alone. -/
theorem ClockLaws.request {f : Phase} {p : Port} {h : Header} {body : List Byte}
    {lengthOk gated : Bool} {act : State → State} {s : State} (hs : ClockLaws s)
    (hact : ∀ t, (act t).clock = t.clock) :
    Answers ClockLaws (.next (request f p h body lengthOk gated act s)) :=
  answers_request (fun t => ClockLaws.onPort t p) (fun t ht => ht.of_clock (hact t)) hs

/-- A request that passes the table's mode check and the check of its handle. -/
theorem asOwner_clock {p : Port} {body : List Byte} {act : Handle → Entry → State → State}
    (hact : ∀ n e t, (act n e t).clock = t.clock) (s : State) :
    (asOwner p body act s).clock = s.clock :=
  asOwner_keeps (P := fun t => t.clock = s.clock) (fun _ _ h => h)
    (fun n e h => (hact n e s).trans h) rfl

theorem whenNormal_withCurrent_clock {p : Port} {body : List Byte}
    {act : Handle → Entry → State → State} (hact : ∀ n e t, (act n e t).clock = t.clock) (s : State) :
    (whenNormal p (withCurrent p body act) s).clock = s.clock :=
  whenNormal_keeps (P := fun t => t.clock = s.clock) (fun _ _ h => h)
    (withCurrent_keeps (P := fun t => t.clock = s.clock) (fun _ _ h => h)
      fun n e h => (hact n e s).trans h) rfl

/-- A command that leaves the clock alone. -/
theorem ClockLaws.of_leaves {s : State} {o : Host.Outcome State Fault Refusal} (hs : ClockLaws s)
    (h : LeavesClock s o) : Answers ClockLaws o :=
  h.imp fun _ ht => hs.of_clock ht

theorem ClockLaws.leaseEndClaim {s : State} (hs : ClockLaws s) :
    Answers ClockLaws (execLeaseEndClaim s) := by
  refine answers_next.mpr ?_
  split
  · exact hs
  · exact ClockLaws.takeLeaseEnd _ _ (hs.of_clock rfl)

/-- The cold-start values obey the laws, whatever the inputs. -/
theorem ClockLaws.cold (pending : List Instr) (freeIndex : Nat) (pf rst vddGood : Bool) (pins : Straps) :
    ClockLaws (State.cold pending freeIndex pf rst vddGood pins) := by
  refine ⟨?_, TimebaseLaw.of_idle (Nat.zero_le _) rfl trivial⟩
  constructor <;> (unfold State.cold; dsimp only; decide)

theorem ClockLaws.coldStart (pf rst : Bool) (good : Option Straps) (s : State) :
    Answers ClockLaws (execColdStart pf rst s good) := by
  refine answers_next.mpr ?_
  have hcold := ClockLaws.cold s.pending s.freeIndex pf rst good.isSome (good.getD s.pins)
  split
  · split
    · exact hcold
    · exact hcold.of_clock rfl
  · exact hcold

theorem ClockLaws.exec (c : Instr) (s : State) (hs : ClockLaws s) : Answers ClockLaws (exec c s) := by
  have hport (p : Port) (t : State) (g : PortCtl → PortCtl) (ht : ClockLaws t) :
    ClockLaws (t.onPort p g) := ht.onPort t p g
  cases c with
  | openReq p h a f => exact hs.request (openAct_clock p _)
  | closeReq p h a f => exact hs.request fun _ => rfl
  | pingReq p h a f => exact hs.request fun _ => rfl
  | statusReq p h a f => exact hs.request fun _ => rfl
  | resyncReq p h a f => exact hs.request fun _ => rfl
  | readTime p h a f => exact hs.request fun _ => rfl
  | stageTime p h a f => exact hs.request fun _ => rfl
  | commitTime p h a f => exact answers_request (hport p) (ClockLaws.throughGate ClockLaws.commitAct) hs
  | cancelCommit p h a f => exact answers_request (hport p) (ClockLaws.throughGate ClockLaws.cancelAct) hs
  | readTrim p h a f => exact hs.request fun _ => rfl
  | setTrim p h a f => exact answers_request (hport p) (ClockLaws.throughGate ClockLaws.setTrimAct) hs
  | acquire p h a f => exact hs.request (acquireAct_clock p _)
  | renew p h a f =>
    exact answers_request (hport p) (ClockLaws.leaseGate fun t ht => ht.of_clock (renewAct_clock p _ t)) hs
  | release p h a f =>
    exact answers_request (hport p) (ClockLaws.leaseGate fun t ht => ht.of_clock (t.endLease_clock _)) hs
  | create p h a f => exact hs.request (createAct_clock p _)
  | arm p h a f => exact hs.request (asOwner_clock (armEntry_clock p _))
  | suspend p h a f => exact hs.request (asOwner_clock (suspendEntry_clock p))
  | resume p h a f => exact hs.request (asOwner_clock (resumeEntry_clock p))
  | delete p h a f => exact hs.request (asOwner_clock fun _ _ _ => rfl)
  | query p h a f => exact hs.request (whenNormal_withCurrent_clock (queryEntry_clock p _))
  | list p h a f => exact hs.request (listAct_clock p _)
  | kick p h a f => exact hs.request (kickAct_clock p h _)
  | setQuota p h a f => exact hs.request (setQuotaAct_clock p _)
  | breakLease p h a f => exact hs.request (breakLeaseAct_clock p)
  | purge p h a f => exact hs.request (whenNormal_withCurrent_clock (purgeEntry_clock p))
  | tuAdvance => exact answers_next.mpr hs.countAdvance.takeAdvance
  | trimWindowStart => exact hs.trimWindowStart
  | leaseEndClaim => exact hs.leaseEndClaim
  | coldStart pf rst good => exact ClockLaws.coldStart pf rst good s
  | kickAtNamedPort q => exact hs.of_leaves (execKickAtNamedPort_clock q s)
  | unknownRequest p h b => exact hs.of_leaves (execUnknownRequest_clock p h b s)
  | overrun p h b => exact hs.of_leaves (execOverrun_clock p h b s)
  | ack p h b => exact hs.of_leaves (execAck_clock p h b s)
  | unusedFrame p cls h b => exact hs.of_leaves (execUnusedFrame_clock p cls h b s)
  | receiveError p cs => exact hs.of_leaves (execReceiveError_clock p cs s)
  | gap p => exact hs.of_leaves (execGap_clock p s)
  | breakLine p => exact hs.of_leaves (execBreak_clock p s)
  | responseFrameStart p rdy => exact hs.of_leaves (execResponseFrameStart_clock p rdy s)
  | noticeFrameStart p rdy => exact hs.of_leaves (execNoticeFrameStart_clock p rdy s)
  | resendFrameStart p rdy => exact hs.of_leaves (execResendFrameStart_clock p rdy s)
  | endOfService p => exact hs.of_leaves (execEndOfService_clock p s)
  | oscillatorSecond sink => exact hs.of_leaves (execOscillatorSecond_clock sink s)
  | leaseExpiry => exact hs.of_leaves (execLeaseExpiry_clock s)
  | keepaliveTimeout p => exact hs.of_leaves (execKeepaliveTimeout_clock p s)
  | tenMsTick => exact hs.of_leaves (execTenMsTick_clock s)
  | ackTimeout p => exact hs.of_leaves (execAckTimeout_clock p s)
  | look src => exact hs.of_leaves (execLook_clock src s)
  | firingClaim => exact hs.of_leaves (execFiringClaim_clock s)
  | wakeRequest => exact hs.of_leaves (execWakeRequest_clock s)
  | noticeTaken src => exact hs.of_leaves (execNoticeTaken_clock src s)
  | searchRunComplete => exact hs.of_leaves (execSearchRunComplete_clock s)
  | resultClaim => exact hs.of_leaves (execResultClaim_clock s)
  | stepClaim => exact hs.of_leaves (execStepClaim_clock s)
  | rescanVisit => exact hs.of_leaves (execRescanVisit_clock s)
  | rescanEnd => exact hs.of_leaves (execRescanEnd_clock s)
  | epochEndClaim => exact hs.of_leaves (execEpochEndClaim_clock s)
  | sessionEndClaim p => exact hs.of_leaves (execSessionEndClaim_clock p s)
  | releaseClaim p => exact hs.of_leaves (execReleaseClaim_clock p s)
  | pf asserted straps point => exact hs.of_leaves (execPf_clock asserted straps point s)
  | rst asserted straps point => exact hs.of_leaves (execRst_clock asserted straps point s)
  | vddLoss => exact hs.of_leaves (answers_next.mpr (s.inputs_clock _ _ _ _))
  | vddGood straps => exact hs.of_leaves (answers_next.mpr (s.inputs_clock _ _ _ straps))
  | noticeFrameEnd p => exact hs.of_leaves (execNoticeFrameEnd_clock p s)
  | frameHeader p data => exact hs.of_leaves (execFrameHeader_clock p data s)
  | returnToMarking p => exact hs.of_leaves (execReturnToMarking_clock p s)

/-- Settles O5: every command and the crystal cycle keep the laws over the clock. -/
theorem timebaseLawsKept : Obligations.TimebaseLawsKept :=
  keptByStep_of_exec (fun _ _ hs => ClockLaws.of_clock hs rfl) ClockLaws.exec ClockLaws.crystalCycle

end Sys2Proof.Machine
end

section
/-! PROOFS. What n crystal cycles bring about (O16). -/

namespace Sys2Proof.Machine

/-! ### Many crystal cycles (R1, R2, R4) -/

/-- Only the prescaler, its due marks and the samples of PF and RST differ. -/
def OnlyCrystalMoved (s t : State) : Prop :=
  ∃ osc marks pfPin rstPin, t = { s with
    osc := osc, transit := { s.transit with marks := marks }
    standby := { s.standby with pfPin := pfPin, rstPin := rstPin } }

theorem OnlyCrystalMoved.refl (s : State) : OnlyCrystalMoved s s :=
  ⟨s.osc, s.transit.marks, s.standby.pfPin, s.standby.rstPin, rfl⟩

theorem OnlyCrystalMoved.trans {s t u : State} (h : OnlyCrystalMoved s t) (h' : OnlyCrystalMoved t u) :
    OnlyCrystalMoved s u := by
  obtain ⟨_, _, _, _, rfl⟩ := h
  obtain ⟨_, _, _, _, rfl⟩ := h'
  exact ⟨_, _, _, _, rfl⟩

theorem OnlyCrystalMoved.eq {s t : State} (h : OnlyCrystalMoved s t) : t = { s with
    osc := t.osc, transit := { s.transit with marks := t.transit.marks }
    standby := { s.standby with pfPin := t.standby.pfPin, rstPin := t.standby.rstPin } } := by
  obtain ⟨_, _, _, _, rfl⟩ := h
  rfl

theorem crystalCycle_only (s : State) : OnlyCrystalMoved s (crystalCycle s) := ⟨_, _, _, _, rfl⟩

/-- The oscillator after crystal cycles, of which the skipped ones are not counted into the residue. -/
def Prescaler.cycled (o : Prescaler) (n : Nat) : Prescaler :=
  { o with
    residue := (o.residue + (n - min n o.skip)) % 128, skip := o.skip - n
    windowPos := (o.windowPos + n) % Config.windowCycles
    tickPos := (o.tickPos + n) % Config.tickGroupCycles }

/-- The ticks of a group that fall after one position and up to another. -/
def ticksBetween (a b : Nat) : Nat := tickEnds.countP fun e => decide (a < e ∧ e ≤ b)

theorem tickEnds_nodup : tickEnds.Nodup := by decide +kernel

/-- A whole group holds 25 ticks (R4). -/
theorem ticksBetween_group : ticksBetween 0 8192 = 25 := by decide +kernel

/-- Up to one count further, a list has as many members more as it holds that count. -/
theorem countP_between_succ (l : List Nat) {a b : Nat} (h : a ≤ b) :
    l.countP (fun e => decide (a < e ∧ e ≤ b + 1)) =
      l.countP (fun e => decide (a < e ∧ e ≤ b)) + l.count (b + 1) := by
  induction l with
  | nil => rfl
  | cons x rest ih =>
    rw [List.countP_cons, List.countP_cons, List.count_cons, ih]
    by_cases hx : x = b + 1
    · have hin : a < x ∧ x ≤ b + 1 := by omega
      have hout : ¬(a < x ∧ x ≤ b) := by omega
      rw [decide_eq_true hin, decide_eq_false hout, hx, beq_self_eq_true, if_pos rfl, if_neg (by decide)]
      omega
    · have hsame : (a < x ∧ x ≤ b + 1) ↔ (a < x ∧ x ≤ b) := by omega
      rw [decide_eq_decide.mpr hsame, if_neg (show ¬(x == b + 1) = true by simpa using hx)]
      omega

/-- One more cycle takes in the tick that falls at its end. -/
theorem ticksBetween_succ {a b : Nat} (h : a ≤ b) :
    ticksBetween a (b + 1) = ticksBetween a b + (if tickEnds.contains (b + 1) then 1 else 0) := by
  rw [ticksBetween, countP_between_succ tickEnds h, tickEnds_nodup.count]
  simp [ticksBetween]

/-- The cycles add up. -/
theorem Prescaler.cycled_cycled (o : Prescaler) (n : Nat) : (o.cycled n).cycled 1 = o.cycled (n + 1) := by
  unfold Prescaler.cycled Config.windowCycles Config.tickGroupCycles
  simp only [Prescaler.mk.injEq, true_and]
  omega

/-- What one crystal cycle makes of the prescaler and its marks. -/
theorem crystalCycle_spec {s : State} (hr : s.osc.residue < 128)
    (hw : s.osc.windowPos < Config.windowCycles) :
    (crystalCycle s).osc = s.osc.cycled 1 ∧
    (crystalCycle s).transit.marks = { s.transit.marks with
      advances := s.transit.marks.advances + (s.osc.residue + (1 - min 1 s.osc.skip)) / 128
      windowStarts := s.transit.marks.windowStarts + (s.osc.windowPos + 1) / Config.windowCycles
      ticks := s.transit.marks.ticks + (if tickEnds.contains (s.osc.tickPos + 1) then 1 else 0) } := by
  have hwindow : (if (s.osc.windowPos + 1) % Config.windowCycles = 0 then 1 else 0) =
      (s.osc.windowPos + 1) / Config.windowCycles := by
    unfold Config.windowCycles at hw ⊢
    split <;> omega
  unfold crystalCycle Prescaler.cycled
  rcases s.osc.countCycle_cases with ⟨hskip, e⟩ | ⟨hskip, hlt, e⟩ | ⟨hskip, hge, e⟩ <;>
    simp only [e, hwindow, Prescaler.mk.injEq, Marks.mk.injEq, and_true, true_and] <;> omega

/-- From any phase, n crystal cycles move the prescaler by n, and its marks of advances and window
starts with it. -/
theorem crystalCycles_spec {s : State} (n : Nat) (hr : s.osc.residue < 128)
    (hw : s.osc.windowPos < Config.windowCycles) (ht : s.osc.tickPos < Config.tickGroupCycles) :
    (crystalCycle^[n] s).osc = s.osc.cycled n ∧
    (crystalCycle^[n] s).transit.marks = { s.transit.marks with
      advances := s.transit.marks.advances + (s.osc.residue + (n - min n s.osc.skip)) / 128
      windowStarts := s.transit.marks.windowStarts + (s.osc.windowPos + n) / Config.windowCycles
      ticks := (crystalCycle^[n] s).transit.marks.ticks } := by
  induction n with
  | zero =>
    simp [Prescaler.cycled, Nat.mod_eq_of_lt hr, Nat.mod_eq_of_lt hw, Nat.mod_eq_of_lt ht,
      Nat.div_eq_of_lt hr, Nat.div_eq_of_lt hw]
  | succ n ih =>
    obtain ⟨hosc, hmarks⟩ := ih
    rw [Function.iterate_succ_apply']
    generalize crystalCycle^[n] s = t at hosc hmarks ⊢
    have hr' : t.osc.residue < 128 := by rw [hosc]; exact Nat.mod_lt _ (by decide)
    have hw' : t.osc.windowPos < Config.windowCycles := by rw [hosc]; exact Nat.mod_lt _ (by decide)
    obtain ⟨hosc', hmarks'⟩ := crystalCycle_spec hr' hw'
    refine ⟨by rw [hosc', hosc, Prescaler.cycled_cycled], ?_⟩
    rw [hmarks', hmarks, hosc]
    unfold Prescaler.cycled Config.windowCycles
    simp only [Marks.mk.injEq, and_true]
    omega

/-- A crystal cycle at whose end a tick of the group falls makes it due. -/
theorem crystalCycle_ticks (s : State) : (crystalCycle s).transit.marks.ticks =
    s.transit.marks.ticks + (if tickEnds.contains (s.osc.tickPos + 1) then 1 else 0) := by
  unfold crystalCycle
  rcases s.osc.countCycle_cases with ⟨-, e⟩ | ⟨-, -, e⟩ | ⟨-, -, e⟩ <;> rw [e]

/-- Within a group, n crystal cycles bring about the ticks that fall in them. -/
theorem crystalCycles_ticks {s : State} (n : Nat) (hr : s.osc.residue < 128)
    (hw : s.osc.windowPos < Config.windowCycles) (ht : s.osc.tickPos < Config.tickGroupCycles)
    (hn : s.osc.tickPos + n ≤ Config.tickGroupCycles) :
    (crystalCycle^[n] s).transit.marks.ticks =
      s.transit.marks.ticks + ticksBetween s.osc.tickPos (s.osc.tickPos + n) := by
  induction n with
  | zero =>
    have hnone : ticksBetween s.osc.tickPos s.osc.tickPos = 0 :=
      List.countP_eq_zero.mpr fun e _ => by simp
    simp [hnone]
  | succ n ih =>
    have hpos : (crystalCycle^[n] s).osc.tickPos = s.osc.tickPos + n := by
      rw [(crystalCycles_spec n hr hw ht).1]
      exact Nat.mod_eq_of_lt (by omega)
    rw [Function.iterate_succ_apply', ← Nat.add_assoc, ticksBetween_succ (Nat.le_add_right _ _),
      ← Nat.add_assoc, ← ih (by omega), ← hpos, crystalCycle_ticks]

theorem crystalCycles_only (s : State) (n : Nat) : OnlyCrystalMoved s (crystalCycle^[n] s) := by
  induction n with
  | zero => exact .refl s
  | succ n ih =>
    rw [Function.iterate_succ_apply']
    exact ih.trans (crystalCycle_only _)

/-- Settles O16: the parts are `crystalCycles_only`, `crystalCycles_spec` and `crystalCycles_ticks`, and
the pattern of ticks written out in the statement is `tickEnds`. -/
theorem crystalCyclesCounted : Obligations.CrystalCyclesCounted := by
  intro s n hr hw ht
  obtain ⟨hosc, hmarks⟩ := crystalCycles_spec n hr hw ht
  have hticks := crystalCycles_ticks n hr hw ht
  refine ⟨(crystalCycles_only s n).eq, hosc, hmarks, hticks, fun h0 h8192 => ?_⟩
  rw [hticks (by rw [h0, h8192]; decide), h0, h8192, Nat.zero_add, ticksBetween_group]

end Sys2Proof.Machine
end

section
/-! PROOFS. The TU advance and the trim window start (O18, O17). -/

namespace Sys2Proof.Machine

/-! ### The advance counted -/

@[simp] theorem countAdvance_time (s : State) : (countAdvance s).time = s.time := by
  unfold countAdvance; dsimp only; split <;> rfl

/-- An advance short of the 256th is counted. -/
theorem countAdvance_of_lt {s : State} (h : s.osc.secondCount < 255) : countAdvance s = { s with
    osc := { s.osc with secondCount := s.osc.secondCount + 1 }
    transit := { s.transit with marks := { s.transit.marks with
      advances := s.transit.marks.advances - 1 } } } :=
  if_pos (Nat.succ_lt_succ h)

/-- The 256th advance is an oscillator second (R4). -/
theorem countAdvance_of_last {s : State} (h : s.osc.secondCount = 255) : countAdvance s = { s with
    osc := { s.osc with secondCount := 0 }
    transit := { s.transit with marks := { s.transit.marks with
      advances := s.transit.marks.advances - 1
      leaseSeconds := s.transit.marks.leaseSeconds + 1
      portSeconds := s.transit.marks.portSeconds.map (· + 1) } } } :=
  if_neg (by rw [h]; decide)

/-! ### Which outcome an advance has -/

section Outcome

variable {s : State} {a : Advance} (ha : s.time.slew.advance = a)

include ha

/-- An advance that stays within its second, or that leaves one but the last with the slot EMPTY, moves
the instant. -/
theorem takeAdvance_moves (h : s.time.instant % 256 + a.amount < 256 ∨
    s.time.slot = .empty ∧ s.time.instant < Config.lastSecond) :
    takeAdvance s = moveInstant a s := by
  have hleave : leavesSecond s.time.instant a.amount = true ↔
      256 ≤ s.time.instant % 256 + a.amount := by simp [leavesSecond]
  rcases takeAdvance_cases s with ⟨second, p, hslot, hl, -⟩ | ⟨-, hl, hlast, -⟩ | ⟨-, e⟩
  · rw [ha, hleave] at hl
    rcases h with h | ⟨h, -⟩
    · omega
    · simp [hslot] at h
  · rw [ha, hleave] at hl
    omega
  · rw [e, ha]

/-- At a second boundary a pending commit takes the advance's place (R117). -/
theorem takeAdvance_commits {second : Nat} {p : Port} (hslot : s.time.slot = .pending second p)
    (h : 256 ≤ s.time.instant % 256 + a.amount) :
    takeAdvance s = s.stepTime true second
      (if s.time.valid then (second : Int) - (s.time.instant / 256 * 256 + 256) else 0) := by
  have hleave : leavesSecond s.time.instant s.time.slew.advance.amount = true := by
    simpa [leavesSecond, ha] using h
  rcases takeAdvance_cases s with ⟨second', p', hslot', -, e⟩ | ⟨hempty, -⟩ | ⟨hno | ⟨hempty, -⟩, -⟩
  · obtain ⟨rfl, rfl⟩ : second' = second ∧ p' = p := by simpa [hslot] using hslot'.symm
    have hnext : (((s.time.instant / 256 + 1) * 256 : Nat) : Int) =
      s.time.instant / 256 * 256 + 256 := by push_cast; ring
    rw [e, hnext]
  · simp [hslot] at hempty
  · exact absurd hleave hno
  · simp [hslot] at hempty

/-- Out of the last second with the slot EMPTY an advance is the epoch end (R13). -/
theorem takeAdvance_ends (hslot : s.time.slot = .empty) (hlast : Config.lastSecond ≤ s.time.instant)
    (h : 256 ≤ s.time.instant % 256 + a.amount) : takeAdvance s = epochEnd s := by
  have hleave : leavesSecond s.time.instant s.time.slew.advance.amount = true := by
    simpa [leavesSecond, ha] using h
  rcases takeAdvance_cases s with ⟨second, p, hpending, -⟩ | ⟨-, -, -, e⟩ | ⟨hno | ⟨-, hlt⟩, -⟩
  · simp [hslot] at hpending
  · exact e
  · exact absurd hleave hno
  · omega

end Outcome

/-! ### The advance a slew makes -/

/-- A slew short of its 64th advance makes an ordinary one, as no slew does. -/
theorem Slew.advance_ordinary {x x' : Slew} (h : x = .idle ∧ x' = .idle ∨
    ∃ r ph, x = .active r ph ∧ ph < 63 ∧ x' = .active r (ph + 1)) : x.advance = ⟨1, x', false⟩ := by
  rcases h with ⟨rfl, rfl⟩ | ⟨r, ph, rfl, hp, rfl⟩
  · rfl
  · simp [Slew.advance, hp]

/-- The 64th advance of a positive slew is gained. -/
theorem Slew.advance_gained {r : Int} (hr : 0 < r) :
    (Slew.active r 63).advance = ⟨2, if r = 1 then .idle else .active (r - 1) 0, decide (r = 1)⟩ := by
  rcases (Slew.active r 63).advance_cases with ⟨h, -⟩ | ⟨r', ph, h, hp, -⟩ | ⟨r', ph, h, -, -, e⟩ |
    ⟨r', ph, h, -, hr', -⟩ <;> cases h
  · exact absurd hp (by decide)
  · exact e
  · omega

/-- The 64th advance of a negative slew is held. -/
theorem Slew.advance_held {r : Int} (hr : r < 0) :
    (Slew.active r 63).advance = ⟨0, if r = -1 then .idle else .active (r + 1) 0, decide (r = -1)⟩ := by
  rcases (Slew.active r 63).advance_cases with ⟨h, -⟩ | ⟨r', ph, h, hp, -⟩ | ⟨r', ph, h, -, hr', -⟩ |
    ⟨r', ph, h, -, -, e⟩ <;> cases h
  · exact absurd hp (by decide)
  · omega
  · exact e

/-- A slew that obeys its law and does not hold this advance moves the instant; it moves it by 2 only
where it gains. -/
theorem Slew.advance_amount_pos {x : Slew} (hx : SlewLaw x) (h : ∀ r, x = .active r 63 → 0 < r) :
    1 ≤ x.advance.amount := by
  rcases x.advance_cases with ⟨rfl, e⟩ | ⟨r, ph, rfl, -, e⟩ | ⟨r, ph, rfl, -, -, e⟩ |
    ⟨r, ph, rfl, hp, hr, -⟩
  · rw [e]
  · rw [e]
  · rw [e]; exact Nat.le_succ 1
  · obtain ⟨-, -, hphase⟩ := hx
    have h63 : ph = 63 := by omega
    exact absurd (h r (by rw [h63])) (by omega)

/-- An advance that is not held leaves its second from its last count, and a gained one also from the
count before. -/
theorem Slew.advance_leaves {i : Nat} {x : Slew} (hx : SlewLaw x)
    (h : i % 256 = 255 ∧ (∀ r, x = .active r 63 → 0 < r) ∨
      i % 256 = 254 ∧ ∃ r, x = .active r 63 ∧ 0 < r) : 256 ≤ i % 256 + x.advance.amount := by
  rcases h with ⟨hi, hslew⟩ | ⟨hi, r, rfl, hr⟩
  · have := Slew.advance_amount_pos hx hslew
    omega
  · rw [Slew.advance_gained hr, hi]
    exact Nat.le_refl 256

/-! ### The outcomes, written out -/

section Written

variable {u : State} {t : Timebase} (ht : u.time = t)

include ht

/-- An ordinary advance (R7, R14). -/
theorem takeAdvance_ordinary {slew' : Slew} (hslew : t.slew = .idle ∧ slew' = .idle ∨
      ∃ r ph, t.slew = .active r ph ∧ ph < 63 ∧ slew' = .active r (ph + 1))
    (hi : t.instant % 256 < 255 ∨ t.slot = .empty ∧ t.instant < Config.lastSecond) :
    takeAdvance u =
      ({ u with time := { t with instant := t.instant + 1, slew := slew' } }).present
        (t.instant + 1) none := by
  subst ht
  exact takeAdvance_moves (Slew.advance_ordinary hslew) (hi.imp Nat.succ_lt_succ id)

/-- A gained advance presents the instant with the count it passed over (R14, R120). -/
theorem takeAdvance_gained {r : Int} (hslew : t.slew = .active r 63) (hr : 0 < r)
    (hi : t.instant % 256 < 254 ∨ t.slot = .empty ∧ t.instant < Config.lastSecond) :
    let v := { u with time := { t with
      instant := t.instant + 2, slew := if r = 1 then .idle else .active (r - 1) 0 } }
    takeAdvance u = (if r = 1 then v.handSlewDone else v).present (t.instant + 2)
      (some (t.instant + 1)) := by
  subst ht
  have ha := Slew.advance_gained hr
  rw [← hslew] at ha
  rw [takeAdvance_moves ha (hi.imp (Nat.add_lt_add_right · 2) id)]
  by_cases h1 : r = 1 <;> simp [moveInstant, h1]

/-- A held advance leaves the instant and presents nothing (R14, R120). -/
theorem takeAdvance_held {r : Int} (hslew : t.slew = .active r 63) (hr : r < 0) :
    let v := { u with time := { t with slew := if r = -1 then .idle else .active (r + 1) 0 } }
    takeAdvance u = if r = -1 then v.handSlewDone else v := by
  subst ht
  have ha := Slew.advance_held hr
  rw [← hslew] at ha
  rw [takeAdvance_moves ha (.inl (Nat.mod_lt _ (by decide)))]
  by_cases h1 : r = -1 <;> simp [moveInstant, h1]

/-- A second boundary with a commit PENDING (R117). -/
theorem takeAdvance_pending {second : Nat} {p : Port} (hx : SlewLaw t.slew)
    (hslot : t.slot = .pending second p)
    (h : t.instant % 256 = 255 ∧ (∀ r, t.slew = .active r 63 → 0 < r) ∨
      t.instant % 256 = 254 ∧ ∃ r, t.slew = .active r 63 ∧ 0 < r) :
    let delta : Int := if t.valid then (second : Int) - (t.instant / 256 * 256 + 256) else 0
    takeAdvance u = ((({ u with time := ⟨second, true, .idle, .empty⟩ }).handNotice .timebase
      (.stepped second delta (t.slew != Slew.idle)) .openSessions).handTimeClaim true
        (.step delta second)) := by
  subst ht
  exact takeAdvance_commits rfl hslot (Slew.advance_leaves hx h)

/-- An advance out of the last second with the slot EMPTY (R13). -/
theorem takeAdvance_lastSecond (hx : SlewLaw t.slew) (hslot : t.slot = .empty)
    (h : t.instant = 807874559999 ∧ (∀ r, t.slew = .active r 63 → 0 < r) ∨
      t.instant = 807874559998 ∧ ∃ r, t.slew = .active r 63 ∧ 0 < r) :
    takeAdvance u = ((({ u with time := ⟨0, false, .idle, .empty⟩ }).handNotice .timebase .epoch
      .openSessions).handTimeClaim true .epochEnd) := by
  subst ht
  have hlast : Config.lastSecond ≤ u.time.instant := by unfold Config.lastSecond; omega
  have hboundary := h.imp (And.imp_left fun e => show u.time.instant % 256 = 255 by omega)
    (And.imp_left fun e => show u.time.instant % 256 = 254 by omega)
  rw [takeAdvance_ends rfl hslot hlast (Slew.advance_leaves hx hboundary), epochEnd, ← hslot]

end Written

/-- Settles O18: `countAdvance` leaves the Timebase to the advance, whose outcomes are written out
above. -/
theorem tuAdvanceMovesInstant : Obligations.TuAdvanceMovesInstant := by
  intro s _ hlaw
  have ht := countAdvance_time s
  exact ⟨countAdvance_of_lt, countAdvance_of_last,
    fun _ hslew hi => congrArg _ (takeAdvance_ordinary ht hslew hi),
    fun _ hslew hr hi => congrArg _ (takeAdvance_gained ht hslew hr hi),
    fun _ hslew hr => congrArg _ (takeAdvance_held ht hslew hr),
    fun _ _ hslot h => congrArg _ (takeAdvance_pending ht hlaw.slew hslot h),
    fun hslot h => congrArg _ (takeAdvance_lastSecond ht hlaw.slew hslot h)⟩

/-! ### The trim window start -/

/-- Settles O17: the sum decides whether a negative trim completes an advance; a trim of 0 or more adds
nothing to a residue in range. -/
theorem trimWindowStarts : Obligations.TrimWindowStarts := by
  intro s
  refine ⟨_, rfl, rfl, rfl, ?_, ?_, ?_⟩
  · intro hT hr
    have hneg : (-s.osc.pendingTrim).toNat = 0 := by omega
    have hpos : s.osc.pendingTrim.toNat = s.osc.pendingTrim.natAbs := by omega
    rcases s.osc.windowStart_cases with ⟨-, e⟩ | ⟨hsum, -⟩
    · simp [e, hneg, hpos]
    · omega
  all_goals
    intro hT hr
    have hneg : (-s.osc.pendingTrim).toNat = s.osc.pendingTrim.natAbs := by omega
    have hpos : s.osc.pendingTrim.toNat = 0 := by omega
    rw [← hneg] at hr
    rcases s.osc.windowStart_cases with ⟨hsum, e⟩ | ⟨hsum, e⟩
  · simp [e, hneg, hpos]
  · omega
  · omega
  · simp [e, hneg, hpos]

end Sys2Proof.Machine
end

section
/-! PROOFS. That every step answers, the cold start and the reset, and the requests that read and stage
the time (O2, O3, O4, O20). -/

namespace Sys2Proof.Machine

/-! ### Every command answers -/

/-- The meaning of every command is a next state. -/
theorem exec_answers (c : Instr) (s : State) : ∃ t, exec c s = .next t := by
  cases c <;> exact ⟨_, rfl⟩

/-- On an empty queue a step takes the next thing the part does of itself. -/
theorem step_of_internal {s : State} {c : Instr} (hp : s.pending = []) (hn : nextInternal s = some c) :
    step s = exec c s := by
  simp only [step, hp, hn]

/-- On an empty queue, with nothing on its way or due, a step is a crystal cycle. -/
theorem step_of_idle {s : State} (hp : s.pending = []) (hn : nextInternal s = none) :
    step s = .next (crystalCycle s) := by
  simp only [step, hp, hn]

theorem step_answers (s : State) : ∃ t, step s = .next t := by
  unfold step
  split
  · exact exec_answers _ _
  · split
    · exact exec_answers _ s
    · exact ⟨_, rfl⟩

/-- Settles O2: a step is a command's meaning or a crystal cycle. -/
theorem everyStepAnswersNext : Obligations.EveryStepAnswersNext :=
  ⟨exec_answers, step_answers, fun _ => step_of_idle, fun _ _ => step_of_internal⟩

/-! ### The cold start -/

section Cold

variable (pending : List Instr) (freeIndex : Nat) (pf rst good : Bool) (pins : Straps)

@[simp] theorem State.cold_slot (i : SlotNo) :
    (State.cold pending freeIndex pf rst good pins).slot i = ⟨0, none⟩ := by
  simp [State.slot, State.cold, Vector.get_eq_getElem]

@[simp] theorem State.cold_entry (i : SlotNo) :
    (State.cold pending freeIndex pf rst good pins).entry i = none := by
  rw [State.entry, State.cold_slot]

@[simp] theorem State.cold_queue (p : Port) :
    (State.cold pending freeIndex pf rst good pins).queue p = ⟨[], [], false⟩ := Quad.get_const _ p

@[simp] theorem State.cold_port (p : Port) :
    (State.cold pending freeIndex pf rst good pins).port p = PortCtl.atReset .none := Quad.get_const _ p

@[simp] theorem State.cold_ownedCount (p : Port) :
    (State.cold pending freeIndex pf rst good pins).ownedCount p = 0 := by
  have hnone : ∀ x ∈ List.replicate 64 (⟨0, none⟩ : Slot), ¬ x.ownedBy p = true := by
    intro x hx
    rw [List.eq_of_mem_replicate hx]
    exact Bool.false_ne_true
  exact List.countP_eq_zero.mpr (by simpa [State.cold] using hnone)

end Cold

theorem calendarView_zero : calendarView 0 = ⟨0, 1, 1, 0, 0, 0, 0⟩ := by decide +kernel

/-- Settles O3: the state is `State.cold`, whose items are its cold-start values. -/
theorem coldStartState : Obligations.ColdStartState := by
  intro s pf rst good
  refine ⟨State.cold s.pending s.freeIndex pf rst good.isSome (good.getD s.pins), ?_, rfl, rfl,
    calendarView_zero, State.cold_slot _ _ _ _ _ _, rfl, rfl, rfl, rfl, rfl,
    State.cold_queue _ _ _ _ _ _, ?_, fun p => ?_, rfl, rfl, rfl⟩
  · cases good <;> rfl
  · cases good <;> rfl
  · rw [State.cold_port]
    exact ⟨rfl, rfl, rfl, rfl, rfl⟩

/-! ### The reset

Every slot is FREE, every queue is empty and nothing is on its way, which leaves the laws about entries,
records and claims nothing to speak of. -/

@[simp] theorem reset_entry (i : SlotNo) : State.reset.entry i = none := State.cold_entry _ _ _ _ _ _ i

@[simp] theorem reset_queue (p : Port) : State.reset.queue p = ⟨[], [], false⟩ :=
  State.cold_queue _ _ _ _ _ _ p

@[simp] theorem reset_port (p : Port) : State.reset.port p = PortCtl.atReset .none :=
  State.cold_port _ _ _ _ _ _ p

theorem reset_dueListLaw : DueListLaw State.reset where
  ordered := .nil
  exact i due := by
    simp only [State.armedAt, reset_entry]
    simp [State.reset, State.cold]

theorem reset_searchQueueLaw : SearchQueueLaw State.reset where
  once := .nil
  exact i := by
    simp only [State.searchingAt, reset_entry]
    simp [State.reset, State.cold]
  gens := nofun

theorem reset_quotaLaw : QuotaLaw State.reset where
  owned p := (State.cold_ownedCount _ _ _ _ _ _ p).trans_le (Nat.zero_le _)
  sum := by decide

theorem reset_duesInEpoch : DuesInEpoch State.reset where
  entries i e h := by simp at h
  firings := nofun
  results := nofun

theorem reset_validLaw : ValidLaw State.reset := by
  intro _ _ i e h
  simp at h

theorem reset_countsLaw : CountsLaw State.reset where
  entries i e h := by simp at h
  firings := nofun

theorem reset_stepLaw : StepLaw State.reset where
  single := Nat.zero_le _
  normal := nofun
  pending h := absurd rfl h
  held _ := rfl

theorem reset_queueLaw : QueueLaw State.reset where
  room p := by rw [reset_queue]; exact Nat.zero_le _
  window p := by rw [reset_queue]; exact Nat.zero_le _
  atMostFour p := by rw [reset_port]; decide

theorem reset_sessionLaw : SessionLaw State.reset where
  options p := by rw [reset_port]; decide
  closed p _ := by rw [reset_port]; rfl

theorem reset_deliveryLaw : DeliveryLaw State.reset where
  closed p := by rw [reset_port]; decide
  none p _ := by rw [reset_queue]
  sequences p k hk := by simp at hk
  timer p := by simp [PortCtl.atReset, Delivery.atReset]
  marks p _ := by simp

theorem reset_leaseLaw : LeaseLaw State.reset where
  holder := nofun
  none _ := rfl
  range := Nat.zero_le _
  pending := nofun

theorem reset_holdLaw : HoldLaw State.reset where
  ports _ p := by rw [reset_port]; exact ⟨rfl, rfl, rfl, rfl, rfl, rfl, rfl⟩
  lease _ := rfl
  condition := rfl
  flag := rfl
  wake := nofun

/-- Settles O4: the laws one by one. -/
theorem resetMeetsEveryLaw : Obligations.ResetMeetsEveryLaw := by
  obtain ⟨hosc, htime⟩ := ClockLaws.cold [] 0 false false false Straps.atReset
  exact ⟨hosc, htime, reset_dueListLaw, reset_searchQueueLaw, (rfl : State.reset.standby.running = false),
    reset_quotaLaw, reset_duesInEpoch, reset_validLaw, reset_countsLaw, reset_stepLaw,
    fun p => by simp, reset_queueLaw, reset_sessionLaw, reset_deliveryLaw, reset_leaseLaw,
    reset_holdLaw⟩

/-! ### Reading and staging the time -/

/-- READ_TIME's fields, one by one (R16). -/
theorem readTimeFields_eq (t : Timebase) :
    let c := calendarView t.instant
    readTimeFields t = [c.year, c.month, c.day, c.hour, c.minute, c.second, c.fraction,
        c.weekday, c.weekNumber].map byteOf
      ++ [byteOf ((if t.valid then 1 else 0) + (if t.slew = .idle then 0 else 2)
            + (if t.slot = .empty then 0 else 4))]
      ++ intBytes 2 (match t.slew with | .idle => 0 | .active r _ => r)
      ++ [match t.slot with | .empty => 0xFF | .pending _ q => portByte q] := by
  obtain ⟨i, valid, slew, slot⟩ := t
  cases valid <;> cases slew <;> cases slot <;> rfl

/-- A READ_TIME taken as a new request needs no session (R16). -/
theorem exec_readTime {s : State} {p : Port} {h : Header} (ht : s.takes p h [0x20]) :
    exec (.readTime p h []) s =
      .next (s.answered p h [0x20] (0x00 :: readTimeFields s.time)) :=
  congrArg Host.Outcome.next (serve_of_takes (gated := false)
    (act := fun s => s.respond p (okBody (readTimeFields s.time))) ht rfl nofun)

/-- A READ_TRIM taken as a new request of a session (R17). -/
theorem exec_readTrim {s : State} {p : Port} {h : Header} (ht : s.takesOpen p h [0x24]) :
    exec (.readTrim p h []) s =
      .next (s.answered p h [0x24] (0x00 :: readTrimFields s)) :=
  congrArg Host.Outcome.next (serve_of_takes (gated := true)
    (act := fun s => s.respond p (okBody (readTrimFields s))) ht.1 rfl fun _ => ht.2)

/-- A STAGE_TIME of eight arguments taken as a new request of a session (R112). -/
theorem exec_stageTime {s : State} {p : Port} {h : Header} {args : List Byte} (hl : args.length = 8)
    (ht : s.takesOpen p h (0x21 :: args)) :
    exec (.stageTime p h args) s = .next (stageAct p (0x21 :: args) (s.serving p h (0x21 :: args))) :=
  congrArg Host.Outcome.next (serve_of_takes ht.1 (by simp [hl]) fun _ => ht.2)

/-- READ_TRIM's fields, one by one (R17). -/
theorem readTrimFields_eq (s : State) : readTrimFields s =
    intBytes 1 s.osc.trim ++ intBytes 1 s.osc.pendingTrim
      ++ [if 0 < s.transit.marks.windowStarts then 31 else byteOf (s.osc.windowPos / 32768)] := by
  unfold readTrimFields windowSeconds
  split <;> rfl

/-- Settles O20: the three requests reach their acts (`serve_of_takes`), which read the state the port
serves them in. -/
theorem timeReadAndStaged : Obligations.TimeReadAndStaged := by
  refine ⟨fun s p h ht => ?_, fun s p h ht => ?_, ?_⟩
  · exact (exec_readTime ht).trans (congrArg (fun fields =>
      Host.Outcome.next (s.answered p h [0x20] (0x00 :: fields))) (readTimeFields_eq s.time))
  · rw [exec_readTrim ht, readTrimFields_eq]
  · intro s p h mask y mo d hr mi se f body ht
    rw [exec_stageTime rfl ht]
    unfold stageAct
    rw [State.serving_port_self, PortCtl.serving_staging]
    rfl

end Sys2Proof.Machine
end

section
/-! PROOFS. The schedule: the slots with their lists and the claims on their way to them. What each
command does to it is said once, for every law over it. -/

namespace Sys2Proof.Machine

/-! ### The schedule of a state -/

/-- The items the laws of entries and of their lists speak of: the slots and quotas, the members of
both lists, the claims on their way to the Schedule Table, and VALID. -/
structure Schedule where
  slots : Vector Slot 64
  quota : Quad Nat
  dueList : List DueItem
  jobs : List Job
  firings : List FiringMsg
  results : List ResultClaim
  timeClaims : List TimeMsg
  valid : Bool

/-- The schedule of a state. -/
def State.schedule (s : State) : Schedule :=
  { slots := s.table.slots, quota := s.table.quota, dueList := s.dueList, jobs := s.search.jobs
    firings := s.transit.firings, results := s.transit.results
    timeClaims := s.transit.timeClaims, valid := s.time.valid }

theorem State.schedule_eq_iff {s t : State} : t.schedule = s.schedule ↔
    t.table.slots = s.table.slots ∧ t.table.quota = s.table.quota ∧ t.dueList = s.dueList ∧
    t.search.jobs = s.search.jobs ∧ t.transit.firings = s.transit.firings ∧
    t.transit.results = s.transit.results ∧ t.transit.timeClaims = s.transit.timeClaims ∧
    t.time.valid = s.time.valid := by
  simp [State.schedule]

/-- States with one schedule hold the same slots. -/
theorem State.slot_of_schedule {s t : State} (h : t.schedule = s.schedule) (i : SlotNo) :
    t.slot i = s.slot i := congrArg (fun x : Schedule => x.slots.get i) h

theorem State.entry_of_schedule {s t : State} (h : t.schedule = s.schedule) (i : SlotNo) :
    t.entry i = s.entry i := congrArg Slot.entry (State.slot_of_schedule h i)

@[simp] theorem State.onPort_schedule (s : State) (p : Port) (f : PortCtl → PortCtl) :
    (s.onPort p f).schedule = s.schedule := rfl

@[simp] theorem State.onQueue_schedule (s : State) (p : Port) (f : NoticeQueue → NoticeQueue) :
    (s.onQueue p f).schedule = s.schedule := rfl

@[simp] theorem State.respond_schedule (s : State) (p : Port) (body : List Byte) :
    (s.respond p body).schedule = s.schedule := rfl

@[simp] theorem State.handNotice_schedule (s : State) (src : NoticeSource) (c : Content) (a : Address) :
    (s.handNotice src c a).schedule = s.schedule := rfl

@[simp] theorem State.handEnded_schedule (s : State) (h : Handle) (e : Entry) (c : EndedCause) :
    (s.handEnded h e c).schedule = s.schedule := rfl

@[simp] theorem State.handLook_schedule (s : State) (m : LookMsg) :
    (s.handLook m).schedule = s.schedule := rfl

@[simp] theorem State.present_schedule (s : State) (n : Nat) (q : Option Nat) :
    (s.present n q).schedule = s.schedule := rfl

@[simp] theorem State.teardown_schedule (s : State) (p : Port) (c : SessionEnd) :
    (s.teardown p c).schedule = s.schedule := rfl

@[simp] theorem State.resync_schedule (s : State) (p : Port) : (s.resync p).schedule = s.schedule := rfl

@[simp] theorem State.handWake_schedule (s : State) (wake : Bool) :
    (s.handWake wake).schedule = s.schedule := by
  cases wake <;> rfl

@[simp] theorem State.sampleRdy_schedule (s : State) (p : Port) (rdy : Bool) :
    (s.sampleRdy p rdy).schedule = s.schedule := by
  unfold State.sampleRdy; split <;> rfl

@[simp] theorem State.endLease_schedule (s : State) (cause : Option LeaseCause) :
    (s.endLease cause).schedule = s.schedule := by
  rcases s.endLease_cases cause with ⟨-, h⟩ | ⟨p, -, -, h⟩ | ⟨p, c, -, -, h⟩ <;> rw [h] <;> rfl

@[simp] theorem State.takeSessionEnd_schedule (s : State) (p : Port) :
    (s.takeSessionEnd p).schedule = s.schedule := by
  unfold State.takeSessionEnd
  split
  · exact s.endLease_schedule _
  · rfl

@[simp] theorem State.settleSessionEnds_schedule (s : State) (p : Port) :
    (s.settleSessionEnds p).schedule = s.schedule := by
  unfold State.settleSessionEnds
  split
  · exact State.takeSessionEnd_schedule _ p
  · rfl

@[simp] theorem State.takeLeaseEnd_schedule (s : State) (m : LeaseEndMsg) :
    (s.takeLeaseEnd m).schedule = s.schedule := by
  unfold State.takeLeaseEnd
  dsimp only
  split <;> rfl

@[simp] theorem State.settleLeaseEnds_schedule (s : State) : s.settleLeaseEnds.schedule = s.schedule :=
  State.settleLeaseEnds_keeps (P := fun t => t.schedule = s.schedule) (fun _ _ h => h)
    (fun t m h => (t.takeLeaseEnd_schedule m).trans h) rfl

/-- A change of an input leaves the schedule alone, whether it holds or starts the port domain. -/
@[simp] theorem State.inputs_schedule (s : State) (pf rst good : Bool) (straps : Straps) :
    (s.inputs pf rst good straps).schedule = s.schedule := by
  rcases s.inputs_cases pf rst good straps with ⟨-, -, h⟩ | ⟨-, -, h⟩ | ⟨-, -, h⟩ | ⟨-, -, h⟩ <;> rw [h]
  · exact State.endLease_schedule _ _
  all_goals rfl

theorem moveInstant_schedule (a : Advance) (s : State) : (moveInstant a s).schedule = s.schedule := by
  unfold moveInstant
  dsimp only
  cases a.done <;> (split <;> rfl)

@[simp] theorem countAdvance_schedule (s : State) : (countAdvance s).schedule = s.schedule := by
  unfold countAdvance; dsimp only; split <;> rfl

/-! ### Acts and events that leave the schedule alone -/

theorem openAct_schedule (p : Port) (body : List Byte) (s : State) :
    (openAct p body s).schedule = s.schedule := by
  unfold openAct
  split
  · rfl
  · dsimp only
    rw [State.respond_schedule, State.onPort_schedule, State.resync_schedule]
    split <;> rfl

theorem kickAct_schedule (p : Port) (h : Header) (body : List Byte) (s : State) :
    (kickAct p h body s).schedule = s.schedule := by
  unfold kickAct
  split
  · rfl
  · split
    · rfl
    · split <;> rfl

theorem acquireAct_schedule (p : Port) (body : List Byte) (s : State) :
    (acquireAct p body s).schedule = s.schedule := by
  refine Eq.trans ?_ (s.settleSessionEnds_schedule p)
  unfold acquireAct
  dsimp only
  split
  · rfl
  · split
    · rfl
    · split <;> rfl

theorem breakLeaseAct_schedule (p : Port) (s : State) :
    (breakLeaseAct p s).schedule = s.schedule := by
  refine Eq.trans ?_ (s.settleSessionEnds_schedule p)
  unfold breakLeaseAct
  dsimp only
  split
  · rfl
  · split
    · rfl
    · exact State.endLease_schedule _ _

theorem leaseGate_schedule {p : Port} {act : State → State}
    (hact : ∀ t, (act t).schedule = t.schedule) (s : State) :
    (leaseGate p act s).schedule = s.schedule := by
  refine Eq.trans ?_ (s.settleSessionEnds_schedule p)
  unfold leaseGate
  dsimp only
  split
  · exact hact _
  · rfl

theorem throughGate_schedule {p : Port} {act : State → State}
    (hact : ∀ t, (act t).schedule = t.schedule) (s : State) :
    (throughGate p act s).schedule = s.schedule :=
  leaseGate_schedule (fun t => (hact _).trans t.settleLeaseEnds_schedule) s

theorem renewAct_schedule (p : Port) (body : List Byte) (s : State) :
    (renewAct p body s).schedule = s.schedule := by
  unfold renewAct; dsimp only; split <;> rfl

theorem setTrimAct_schedule (p : Port) (body : List Byte) (s : State) :
    (setTrimAct p body s).schedule = s.schedule := by
  unfold setTrimAct; dsimp only; split <;> rfl

theorem listAct_schedule (p : Port) (body : List Byte) (s : State) :
    (listAct p body s).schedule = s.schedule := by
  refine whenNormal_keeps (P := fun t => t.schedule = s.schedule) (fun _ _ h => h) (fun _ => ?_) rfl
  dsimp only
  split
  · rfl
  · split <;> rfl

theorem queryEntry_schedule (p : Port) (body : List Byte) (n : Handle) (e : Entry) (s : State) :
    (queryEntry p body n e s).schedule = s.schedule := by
  unfold queryEntry; split <;> rfl

theorem kickVerdict_schedule (k : KickMsg) (body : List Byte) (s : State) :
    (kickVerdict k body s).schedule = s.schedule := by
  unfold kickVerdict; split <;> rfl

theorem portSecond_schedule (p : Port) (s : State) : (portSecond p s).schedule = s.schedule := by
  unfold portSecond
  dsimp only
  split
  · split <;> rfl
  · rfl

theorem leaseSecond_schedule (s : State) : (leaseSecond s).schedule = s.schedule := by
  unfold leaseSecond
  split
  · split
    · rfl
    · split
      · exact s.endLease_schedule _
      · rfl
  · rfl

theorem takeAck_schedule (p : Port) (seq : Fin 16) (s : State) :
    (takeAck p seq s).schedule = s.schedule := by
  unfold takeAck
  split
  · split <;> rfl
  · rfl

theorem placeFor_foldl_schedule (content : Content) (set : PortSet) (l : List Port) (s : State) :
    (l.foldl (placeFor content set) s).schedule = s.schedule := by
  induction l generalizing s with
  | nil => rfl
  | cons p rest ih =>
    refine (ih _).trans ?_
    unfold placeFor
    split <;> rfl

/-- A request taken as no request of its own: it reaches no act, or one that leaves the schedule alone. -/
theorem serve_schedule {p : Port} {h : Header} {body : List Byte} {lengthOk gated : Bool}
    {act : State → State} (hact : ∀ t, (act t).schedule = t.schedule) (s : State) :
    (serve p h body lengthOk gated act s).schedule = s.schedule :=
  serve_keeps (P := fun t => t.schedule = s.schedule) (fun _ _ h => h)
    (fun t h => (hact t).trans h) rfl

/-- A transmitter's or receiver's event that writes one port's controller and queue, or nothing. -/
theorem frameStart_schedule (p : Port) (rdy : Bool) (s : State) :
    Answers (fun t => t.schedule = s.schedule) (execResponseFrameStart p rdy s) ∧
    Answers (fun t => t.schedule = s.schedule) (execNoticeFrameStart p rdy s) ∧
    Answers (fun t => t.schedule = s.schedule) (execResendFrameStart p rdy s) := by
  refine ⟨answers_next.mpr ?_, answers_next.mpr ?_, answers_next.mpr ?_⟩ <;>
    (split <;> exact s.sampleRdy_schedule p _)

/-- The commands that have no part in the schedule: those of the port domain, of the leases and of the
inputs. -/
def leavesSchedule : Instr → Bool
  | .kickAtNamedPort _ | .unknownRequest .. | .overrun .. | .ack .. | .unusedFrame ..
  | .receiveError .. | .gap _ | .breakLine _ | .responseFrameStart .. | .noticeFrameStart ..
  | .resendFrameStart .. | .endOfService _ | .trimWindowStart | .oscillatorSecond _ | .leaseExpiry
  | .keepaliveTimeout _ | .tenMsTick | .ackTimeout _ | .wakeRequest | .noticeTaken _
  | .leaseEndClaim | .sessionEndClaim _ | .pf .. | .rst .. | .vddLoss | .vddGood _
  | .noticeFrameEnd _ | .frameHeader .. | .returnToMarking _ => true
  | _ => false

/-- A command that has no part in the schedule leaves it alone. -/
theorem exec_schedule (c : Instr) (hc : leavesSchedule c = true) (s : State) :
    Answers (fun t => t.schedule = s.schedule) (exec c s) := by
  cases c with
  | kickAtNamedPort q =>
    refine answers_next.mpr ?_
    split
    · rfl
    · dsimp only
      split <;> exact kickVerdict_schedule _ _ _
  | unknownRequest p h body =>
    refine answers_next.mpr ?_
    split
    · exact serve_schedule (fun t => t.respond_schedule p _) s
    · rfl
  | overrun p h body =>
    refine answers_next.mpr ?_
    split
    · exact serve_schedule (fun _ => rfl) s
    · rfl
  | ack p h body =>
    refine answers_next.mpr ?_
    split
    · rfl
    · split
      · rfl
      · exact takeAck_schedule _ _ _
  | unusedFrame p cls h body =>
    refine answers_next.mpr ?_
    split
    · rfl
    · split <;> rfl
  | receiveError p chars => refine answers_next.mpr ?_; split <;> rfl
  | frameHeader p data => refine answers_next.mpr ?_; split <;> rfl
  | gap p =>
    refine answers_next.mpr ?_
    split
    · split <;> rfl
    · rfl
  | breakLine p =>
    refine answers_next.mpr ?_
    split
    · dsimp only
      split <;> rfl
    · rfl
  | returnToMarking p => refine answers_next.mpr ?_; split <;> rfl
  | responseFrameStart p rdy => exact (frameStart_schedule p rdy s).1
  | noticeFrameStart p rdy => exact (frameStart_schedule p rdy s).2.1
  | resendFrameStart p rdy => exact (frameStart_schedule p rdy s).2.2
  | endOfService p => refine answers_next.mpr ?_; split <;> rfl
  | noticeFrameEnd p => refine answers_next.mpr ?_; split <;> rfl
  | trimWindowStart => exact answers_next.mpr rfl
  | oscillatorSecond sink =>
    refine answers_next.mpr ?_
    cases sink with
    | lease => exact leaseSecond_schedule _
    | port p => exact portSecond_schedule p _
  | leaseExpiry =>
    refine answers_next.mpr ?_
    split
    · exact leaseSecond_schedule _
    · rfl
  | keepaliveTimeout p =>
    refine answers_next.mpr ?_
    split
    · exact portSecond_schedule p _
    · rfl
  | tenMsTick => refine answers_next.mpr ?_; split <;> rfl
  | ackTimeout p =>
    refine answers_next.mpr ?_
    split
    · split <;> rfl
    · rfl
  | wakeRequest => refine answers_next.mpr ?_; split <;> rfl
  | noticeTaken src =>
    refine answers_next.mpr ?_
    split
    · rfl
    · exact placeFor_foldl_schedule _ _ _ _
  | leaseEndClaim =>
    refine answers_next.mpr ?_
    split
    · rfl
    · exact State.takeLeaseEnd_schedule _ _
  | sessionEndClaim p =>
    refine answers_next.mpr ?_
    split
    · exact State.takeSessionEnd_schedule _ p
    · rfl
  | pf asserted straps point =>
    refine answers_next.mpr ?_
    cases point with
    | filtered => exact State.inputs_schedule _ _ _ _ _
    | pin => rfl
  | rst asserted straps point =>
    refine answers_next.mpr ?_
    cases point with
    | filtered => exact State.inputs_schedule _ _ _ _ _
    | pin => rfl
  | vddLoss => exact answers_next.mpr (s.inputs_schedule _ _ _ _)
  | vddGood straps => exact answers_next.mpr (s.inputs_schedule _ _ _ straps)
  | _ => exact absurd hc (by simp [leavesSchedule])

end Sys2Proof.Machine
end

section
/-! PROOFS. The moves of the schedule: what the commands can do to it, said once, and that a law which
every move keeps is kept by every step. -/

namespace Sys2Proof.Machine

/-! ### The slots after writing or freeing an entry -/

@[simp] theorem State.setSlot_entry_self (s : State) (i : SlotNo) (x : Slot) :
    (s.setSlot i x).entry i = x.entry := congrArg Slot.entry (s.setSlot_slot_self i x)

theorem State.setSlot_entry_ne (s : State) {i j : SlotNo} (h : j ≠ i) (x : Slot) :
    (s.setSlot i x).entry j = s.entry j := congrArg Slot.entry (s.setSlot_slot_ne h x)

/-- States with one table hold the same slots. -/
theorem State.slot_of_table {s t : State} (h : t.table = s.table) (i : SlotNo) : t.slot i = s.slot i :=
  congrArg (fun x : Table => x.slots.get i) h

@[simp] theorem State.place_slot_self (s : State) (i : SlotNo) (e : Entry) (ref : Reference) :
    (s.place i e ref).slot i = ⟨(s.slot i).gen, some e⟩ :=
  (State.slot_of_table (s.place_table i e ref) i).trans (s.setSlot_slot_self i _)

theorem State.place_slot_ne (s : State) {i j : SlotNo} (h : j ≠ i) (e : Entry) (ref : Reference) :
    (s.place i e ref).slot j = s.slot j :=
  (State.slot_of_table (s.place_table i e ref) j).trans (s.setSlot_slot_ne h _)

@[simp] theorem State.place_entry_self (s : State) (i : SlotNo) (e : Entry) (ref : Reference) :
    (s.place i e ref).entry i = some e := congrArg Slot.entry (s.place_slot_self i e ref)

theorem State.place_entry_ne (s : State) {i j : SlotNo} (h : j ≠ i) (e : Entry) (ref : Reference) :
    (s.place i e ref).entry j = s.entry j := congrArg Slot.entry (s.place_slot_ne h e ref)

@[simp] theorem State.freeSlot_slot_self (s : State) (i : SlotNo) :
    (s.freeSlot i).slot i = ⟨(s.slot i).gen + 1, none⟩ := (s.leaveLists i).setSlot_slot_self i _

theorem State.freeSlot_slot_ne (s : State) {i j : SlotNo} (h : j ≠ i) :
    (s.freeSlot i).slot j = s.slot j := (s.leaveLists i).setSlot_slot_ne h _

@[simp] theorem State.freeSlot_entry_self (s : State) (i : SlotNo) : (s.freeSlot i).entry i = none :=
  congrArg Slot.entry (s.freeSlot_slot_self i)

theorem State.freeSlot_entry_ne (s : State) {i j : SlotNo} (h : j ≠ i) :
    (s.freeSlot i).entry j = s.entry j := congrArg Slot.entry (s.freeSlot_slot_ne h)

/-- Writing an entry changes the slots, the two lists and the looks on their way, and nothing else. -/
theorem State.place_frame (s : State) (i : SlotNo) (e : Entry) (ref : Reference) :
    let t := s.place i e ref
    t = { s with table := { s.table with slots := t.table.slots }, dueList := t.dueList,
                 search := t.search, transit := { s.transit with looks := t.transit.looks } } := by
  rcases s.place_cases i e ref with ⟨due, -, h⟩ | ⟨-, h⟩ | ⟨-, -, h⟩
  · rcases State.joinDue_cases ((s.leaveLists i).setSlot i ⟨(s.slot i).gen, some e⟩) i due with
      ⟨-, h'⟩ | ⟨-, h'⟩ <;> rw [h'] at h <;> rw [h] <;> rfl
  · rw [h]; rfl
  · rw [h]; rfl

/-- An entry that is in no list stands in its slot as one that has left both lists. -/
theorem State.place_entry_eq (s : State) (i j : SlotNo) (e : Entry) (ref : Reference) :
    (s.place i e ref).entry j = if j = i then some e else s.entry j := by
  split
  · subst_vars; simp
  · exact s.place_entry_ne ‹_› e ref

theorem State.freeSlot_entry_eq (s : State) (i j : SlotNo) :
    (s.freeSlot i).entry j = if j = i then none else s.entry j := by
  split
  · subst_vars; simp
  · exact s.freeSlot_entry_ne ‹_›

@[simp] theorem State.place_time (s : State) (i : SlotNo) (e : Entry) (ref : Reference) :
    (s.place i e ref).time = s.time := by rw [s.place_frame]

@[simp] theorem State.place_quota (s : State) (i : SlotNo) (e : Entry) (ref : Reference) :
    (s.place i e ref).table.quota = s.table.quota := by rw [s.place_frame]

@[simp] theorem State.place_mode (s : State) (i : SlotNo) (e : Entry) (ref : Reference) :
    (s.place i e ref).table.mode = s.table.mode := by rw [s.place_frame]

@[simp] theorem State.place_firings (s : State) (i : SlotNo) (e : Entry) (ref : Reference) :
    (s.place i e ref).transit.firings = s.transit.firings := by rw [s.place_frame]

@[simp] theorem State.place_results (s : State) (i : SlotNo) (e : Entry) (ref : Reference) :
    (s.place i e ref).transit.results = s.transit.results := by rw [s.place_frame]

@[simp] theorem State.place_timeClaims (s : State) (i : SlotNo) (e : Entry) (ref : Reference) :
    (s.place i e ref).transit.timeClaims = s.transit.timeClaims := by rw [s.place_frame]

/-! ### The claims on their way to the Schedule Table -/

/-- The state with other claims on their way to the Schedule Table. -/
def State.withClaims (s : State) (firings : List FiringMsg) (results : List ResultClaim)
    (timeClaims : List TimeMsg) : State :=
  { s with transit := { s.transit with firings, results, timeClaims } }

theorem State.withClaims_joinDue (s : State) (f : List FiringMsg) (r : List ResultClaim)
    (c : List TimeMsg) (i : SlotNo) (due : Nat) :
    (s.withClaims f r c).joinDue i due = (s.joinDue i due).withClaims f r c := by
  rcases s.joinDue_cases i due with ⟨hm, h⟩ | ⟨hm, h⟩ <;>
    rcases (s.withClaims f r c).joinDue_cases i due with ⟨hm', h'⟩ | ⟨hm', h'⟩
  · rw [h, h']; rfl
  · exact absurd hm hm'
  · exact absurd hm' hm
  · rw [h, h']; rfl

/-- Writing an entry does not look at the claims on their way. -/
theorem State.withClaims_place (s : State) (f : List FiringMsg) (r : List ResultClaim)
    (c : List TimeMsg) (i : SlotNo) (e : Entry) (ref : Reference) :
    (s.withClaims f r c).place i e ref = (s.place i e ref).withClaims f r c := by
  unfold State.place
  cases e.state with
  | armed due =>
    exact State.withClaims_joinDue ((s.leaveLists i).setSlot i ⟨(s.slot i).gen, some e⟩) f r c i due
  | _ => rfl

/-! ### The epoch end of one slot -/

theorem epochEndSlot_of_live {s : State} {i : SlotNo} {e : Entry} (he : s.entry i = some e)
    (hl : e.state.live = true) : epochEndSlot s i =
      (s.place i { e with state := .spent .epoch } .pastEpoch).handEnded ⟨i, (s.slot i).gen⟩ e .epoch := by
  simp [epochEndSlot, he, hl]

theorem epochEndSlot_of_not_live {s : State} {i : SlotNo}
    (hl : ∀ e, s.entry i = some e → e.state.live = false) : epochEndSlot s i = s := by
  unfold epochEndSlot
  cases he : s.entry i with
  | none => rfl
  | some e => simp [hl e he]

/-- The end of an entry at the epoch does not look at the claims on their way. -/
theorem epochEndSlot_withClaims (s : State) (f : List FiringMsg) (r : List ResultClaim)
    (c : List TimeMsg) (i : SlotNo) :
    epochEndSlot (s.withClaims f r c) i = (epochEndSlot s i).withClaims f r c := by
  by_cases hlive : ∃ e, s.entry i = some e ∧ e.state.live = true
  · obtain ⟨e, he, hl⟩ := hlive
    rw [epochEndSlot_of_live he hl, epochEndSlot_of_live (s := s.withClaims f r c) he hl,
      State.withClaims_place]
    rfl
  · have hrest : ∀ e, s.entry i = some e → e.state.live = false := by simpa using hlive
    rw [epochEndSlot_of_not_live hrest, epochEndSlot_of_not_live (s := s.withClaims f r c) hrest]

theorem epochEndSlot_foldl_withClaims (l : List SlotNo) (s : State) (f : List FiringMsg)
    (r : List ResultClaim) (c : List TimeMsg) :
    l.foldl epochEndSlot (s.withClaims f r c) = (l.foldl epochEndSlot s).withClaims f r c := by
  induction l generalizing s with
  | nil => rfl
  | cons i rest ih => rw [List.foldl_cons, List.foldl_cons, epochEndSlot_withClaims, ih]

theorem epochEndSlot_entry_ne (s : State) {i j : SlotNo} (h : j ≠ i) :
    (epochEndSlot s i).entry j = s.entry j := by
  by_cases hlive : ∃ e, s.entry i = some e ∧ e.state.live = true
  · obtain ⟨e, he, hl⟩ := hlive
    rw [epochEndSlot_of_live he hl]
    exact s.place_entry_ne h _ _
  · rw [epochEndSlot_of_not_live (by simpa using hlive)]

/-- Once its slot has been taken, no entry there is live. -/
theorem epochEndSlot_entry_self (s : State) (i : SlotNo) {e : Entry}
    (he : (epochEndSlot s i).entry i = some e) : e.state.live = false := by
  by_cases hlive : ∃ e, s.entry i = some e ∧ e.state.live = true
  · obtain ⟨e', he', hl⟩ := hlive
    rw [epochEndSlot_of_live he' hl] at he
    have hself := (s.place_entry_self i { e' with state := .spent .epoch } .pastEpoch).symm.trans he
    cases hself
    rfl
  · rw [epochEndSlot_of_not_live (by simpa using hlive)] at he
    simp only [not_exists, not_and, Bool.not_eq_true] at hlive
    exact hlive e he

/-- After the epoch end of the slots of a list, no entry in any of them is live. -/
theorem epochEnd_leaves_none_live (l : List SlotNo) (s : State) (i : SlotNo) (e : Entry)
    (h : i ∈ l ∨ ∀ e, s.entry i = some e → e.state.live = false)
    (he : (l.foldl epochEndSlot s).entry i = some e) : e.state.live = false := by
  induction l generalizing s with
  | nil => exact h.resolve_left List.not_mem_nil e he
  | cons j rest ih =>
    refine ih (epochEndSlot s j) ?_ he
    by_cases hij : i = j
    · subst hij
      exact .inr fun e' he' => epochEndSlot_entry_self s i he'
    · rcases h with h | h
      · exact .inl ((List.mem_cons.mp h).resolve_left hij)
      · exact .inr fun e' he' => h e' (by rwa [epochEndSlot_entry_ne s hij] at he')

end Sys2Proof.Machine
end

section
/-! PROOFS. The moves of the schedule, and that a law every move keeps is kept by every step. -/

namespace Sys2Proof.Machine

/-! ### What a command can make of an entry -/

/-- How the record of an entry can change where it stands: by ARM, SUSPEND and RESUME (R29 to R35), by a
firing (R51), by the result of its search (R71, R73), by the epoch end (R43) and by a rescan (R129 to
R132). -/
inductive State.Rewrites (s : State) (e : Entry) : Entry → Prop where
  | armed (body : List Byte) (plan : Plan) (harmable : e.state.armable = true)
      (hvalid : s.time.valid = true) (hplan : (overrideOf body).bind e.plan.override = some plan)
      (hfits : (plan.armed s.time.instant).dueFits = true) :
      s.Rewrites e { e with
        state := plan.armed s.time.instant, plan, remaining := remainingOf e.repeatLimit }
  | suspended (st : EntryState) (h : e.suspended = some st) : s.Rewrites e { e with state := st }
  | resumed (st : EntryState) (h : e.state.resumed = some st) (hvalid : s.time.valid = true) :
      s.Rewrites e { e with state := st }
  | fired (m : FiringMsg) (hm : m ∈ s.transit.firings) (h : e.state = .armed m.claim.due) :
      s.Rewrites e (e.fired (m.claim.settled e))
  | found (c : ResultClaim) (hc : c ∈ s.transit.results) (second : Nat)
      (hfound : c.found = some second) (h : e.state = .searching) :
      s.Rewrites e { e with state := .armed second }
  | notFound (h : e.state = .searching) : s.Rewrites e { e with state := .spent .noMatch }
  | ended (h : e.state.live = true) : s.Rewrites e { e with state := .spent .epoch }
  | moved (pol : StepPolicy) (due : Nat) (delta : Int) (h : e.state = .armed due) :
      s.Rewrites e { e with state := .armed (pol.due due delta) }
  | movedSuspended (pol : StepPolicy) (due : Nat) (delta : Int) (h : e.state = .suspended (some due)) :
      s.Rewrites e { e with state := .suspended (some (pol.due due delta)) }
  | sought (due : Nat) (h : e.state = .armed due) : s.Rewrites e { e with state := .searching }

/-- A law over the schedule that each move of the schedule keeps. -/
structure ScheduleInvariant (P : State → Prop) : Prop where
  /-- The law looks at nothing but the schedule. -/
  frame : ∀ {s t : State}, P s → t.schedule = s.schedule → P t
  /-- CREATE fills a FREE slot of a port below its quota (R28). -/
  created : ∀ {s : State} {p : Port} {body : List Byte} {i : SlotNo} {e : Entry} {ref : Reference}, P s →
    entryOf p body = some e → s.entry i = none → s.ownedCount p < s.table.quota.get p →
    P (s.place i e ref)
  rewritten : ∀ {s : State} {i : SlotNo} {e e' : Entry} {ref : Reference}, P s →
    s.entry i = some e → s.Rewrites e e' → P (s.place i e' ref)
  freed : ∀ {s : State} (i : SlotNo), P s → P (s.freeSlot i)
  /-- A rescan gives the job of a SEARCHING entry a new reference (R75). -/
  sought : ∀ {s : State} (i : SlotNo) (ref : Reference), P s →
    P { s with search := s.search.resetRef i ref }
  /-- SET_QUOTA past its checks (R152). -/
  quota : ∀ {s : State} (q : Port) (n : Nat), P s → quotaSum (s.table.quota.set q n) ≤ 64 →
    s.ownedCount q ≤ n → P { s with table := { s.table with quota := s.table.quota.set q n } }
  /-- A look hands firing claims on (R50). -/
  looked : ∀ {s : State} (stamp instant : Nat) (passed : Option Nat), P s →
    P (s.withClaims (s.transit.firings ++ (lookClaims s instant passed).map fun c => ⟨stamp, c⟩)
      s.transit.results s.transit.timeClaims)
  /-- A run of the search hands its result on (R71). -/
  searched : ∀ {s : State} (j : Job), P s →
    P (s.withClaims s.transit.firings (s.transit.results ++ [jobResult s j]) s.transit.timeClaims)
  /-- A firing or result claim is taken. -/
  taken : ∀ {s : State} (f : List FiringMsg) (r : List ResultClaim), P s → f ⊆ s.transit.firings →
    r ⊆ s.transit.results → P (s.withClaims f r s.transit.timeClaims)
  /-- The oldest Timebase claim is taken; once an epoch-end claim has been, no entry is live (R43). -/
  timeTaken : ∀ {s : State} (m : TimeMsg) (rest : List TimeMsg), P s →
    s.transit.timeClaims = m :: rest →
    (m.claim = .epochEnd → ∀ i e, s.entry i = some e → e.state.live = false) →
    P (s.withClaims s.transit.firings s.transit.results rest)
  /-- A step of the instant makes the time VALID and hands the step claim on (R114). -/
  stepped : ∀ {s : State} (fromAdvance : Bool) (instant : Nat) (delta : Int), P s →
    P (s.stepTime fromAdvance instant delta)
  /-- The epoch end makes the time not VALID and hands its claim on (R13). -/
  epochEnded : ∀ {s : State}, P s → P (epochEnd s)
  cold : ∀ (pending : List Instr) (freeIndex : Nat) (pf rst vddGood : Bool) (pins : Straps),
    P (State.cold pending freeIndex pf rst vddGood pins)

/-! ### The gates of an entry request -/

theorem State.entry_of_current {s : State} {n : Handle} {e : Entry} (h : s.current n = some e) :
    s.entry n.slot = some e := by
  unfold State.current at h
  split at h
  · exact h
  · cases h

/-- A request with a handle is refused BAD_HANDLE or acts on the current entry it names. -/
theorem withCurrent_cases (p : Port) (body : List Byte) (act : Handle → Entry → State → State)
    (s : State) : withCurrent p body act s = s.respond p (refusal .badHandle) ∨
    ∃ n e, s.current n = some e ∧ withCurrent p body act s = act n e s := by
  unfold withCurrent
  cases handleAt body 1 with
  | none => exact .inl rfl
  | some n =>
    cases he : s.current n with
    | none => simp [he]
    | some e => exact .inr ⟨n, e, he, by simp [he]⟩

/-- A request of an entry's owner is refused, or acts on the current entry it names. -/
theorem asOwner_cases (p : Port) (body : List Byte) (act : Handle → Entry → State → State)
    (s : State) : (∃ st, asOwner p body act s = s.respond p (refusal st)) ∨
    ∃ n e, s.current n = some e ∧ e.owner = p ∧ asOwner p body act s = act n e s := by
  unfold asOwner whenNormal
  split
  · rcases withCurrent_cases p body (fun h e s =>
      if e.owner = p then act h e s else s.respond p (refusal .denied)) s with h | ⟨n, e, he, h⟩
    · exact .inl ⟨_, h⟩
    · rw [h]
      by_cases ho : e.owner = p
      · exact .inr ⟨n, e, he, ho, if_pos ho⟩
      · exact .inl ⟨_, if_neg ho⟩
  · exact .inl ⟨_, rfl⟩

/-- The head of the Timebase claims is the one that may be taken. -/
theorem State.timeClaimReady_head {s : State} {m : TimeMsg} (h : s.timeClaimReady = some m) :
    s.transit.timeClaims = m :: s.transit.timeClaims.drop 1 := by
  unfold State.timeClaimReady at h
  split at h
  · cases h
  · dsimp only at h
    split at h
    · cases h
      simp [*]
    · cases h

end Sys2Proof.Machine
end

section
/-! PROOFS. A law that every move of the schedule keeps is kept by every step. -/

namespace Sys2Proof.Machine.ScheduleInvariant

variable {P : State → Prop} {s : State}

/-! ### Requests -/

theorem onPort (hP : ScheduleInvariant P) (p : Port) (t : State) (f : PortCtl → PortCtl) (h : P t) :
    P (t.onPort p f) := hP.frame h rfl

/-- A request whose owning block's act keeps the law. -/
theorem request (hP : ScheduleInvariant P) {f : Phase} {p : Port} {h : Header} {body : List Byte}
    {lengthOk gated : Bool} {act : State → State} (hs : P s) (hact : ∀ t, P t → P (act t)) :
    Answers P (.next (Machine.request f p h body lengthOk gated act s)) :=
  answers_request (hP.onPort p) hact hs

/-- A request whose owning block's act leaves the schedule alone. -/
theorem request_frame (hP : ScheduleInvariant P) {f : Phase} {p : Port} {h : Header} {body : List Byte}
    {lengthOk gated : Bool} {act : State → State} (hs : P s)
    (hact : ∀ t, (act t).schedule = t.schedule) :
    Answers P (.next (Machine.request f p h body lengthOk gated act s)) :=
  hP.request hs fun t ht => hP.frame ht (hact t)

/-- A request of an entry's owner whose act on the entry keeps the law. -/
theorem asOwner (hP : ScheduleInvariant P) {p : Port} {body : List Byte}
    {act : Handle → Entry → State → State}
    (hact : ∀ n e, s.entry n.slot = some e → P (act n e s)) (hs : P s) :
    P (asOwner p body act s) := by
  rcases asOwner_cases p body act s with ⟨st, e⟩ | ⟨n, e, he, -, h⟩
  · rw [e]; exact hP.onPort p _ _ hs
  · rw [h]; exact hact n e (State.entry_of_current he)

theorem createAct (hP : ScheduleInvariant P) {p : Port} {body : List Byte} (hs : P s) :
    P (createAct p body s) := by
  refine whenNormal_keeps (hP.onPort p) (fun _ => ?_) hs
  split
  · exact hP.frame hs rfl
  · split
    · exact hP.frame hs rfl
    · split
      · exact hP.frame hs rfl
      · rename_i e he hroom _ i hi
        have hfree : s.entry i = none := by simpa using List.find?_some hi
        exact hP.onPort p _ _ (hP.created hs he hfree (Nat.lt_of_not_le hroom))

theorem armEntry (hP : ScheduleInvariant P) {p : Port} {body : List Byte} {n : Handle} {e : Entry}
    (hs : P s) (he : s.entry n.slot = some e) : P (armEntry p body n e s) := by
  unfold Machine.armEntry
  split
  · exact hP.frame hs rfl
  · rename_i harmable
    split
    · exact hP.frame hs rfl
    · rename_i hvalid
      split
      · exact hP.frame hs rfl
      · rename_i plan hplan
        dsimp only
        split
        · exact hP.onPort p _ _ (hP.rewritten hs he
            (.armed body plan (by simpa using harmable) (by simpa using hvalid) hplan ‹_›))
        · exact hP.frame hs rfl

theorem suspendEntry (hP : ScheduleInvariant P) {p : Port} {n : Handle} {e : Entry}
    (hs : P s) (he : s.entry n.slot = some e) : P (suspendEntry p n e s) := by
  unfold Machine.suspendEntry
  split
  · exact hP.frame hs rfl
  · exact hP.onPort p _ _ (hP.rewritten hs he (.suspended _ ‹_›))

theorem resumeEntry (hP : ScheduleInvariant P) {p : Port} {n : Handle} {e : Entry}
    (hs : P s) (he : s.entry n.slot = some e) : P (resumeEntry p n e s) := by
  unfold Machine.resumeEntry
  split
  · exact hP.frame hs rfl
  · split
    · exact hP.frame hs rfl
    · rename_i hvalid
      exact hP.onPort p _ _ (hP.rewritten hs he (.resumed _ ‹_› (by simpa using hvalid)))

theorem setQuotaAct (hP : ScheduleInvariant P) {p : Port} {body : List Byte} (hs : P s) :
    P (setQuotaAct p body s) := by
  refine whenNormal_keeps (hP.onPort p) (fun _ => ?_) hs
  dsimp only
  split
  · exact hP.frame hs rfl
  · split
    · exact hP.frame hs rfl
    · rename_i q _
      split
      · exact hP.frame hs rfl
      · split
        · exact hP.frame hs rfl
        · split
          · exact hP.frame hs rfl
          · exact hP.onPort p _ _ (hP.quota q _ hs (Nat.le_of_not_lt ‹_›) (Nat.le_of_not_lt ‹_›))

theorem purgeEntry (hP : ScheduleInvariant P) {p : Port} {n : Handle} {e : Entry} (hs : P s) :
    P (purgeEntry p n e s) := by
  unfold Machine.purgeEntry
  split
  · exact hP.frame hs rfl
  · exact hP.onPort p _ _ (hP.freed n.slot (hP.frame hs (State.handEnded_schedule _ _ _ _)))

theorem commitAct (hP : ScheduleInvariant P) {p : Port} {body : List Byte} (hs : P s) :
    P (commitAct p body s) := by
  unfold Machine.commitAct
  split
  · exact hP.frame hs rfl
  · rename_i mode staged _
    refine hP.onPort p _ _ (hP.onPort p _ _ ?_)
    cases mode with
    | step => exact hP.stepped false staged _ hs
    | onSecond => exact hP.frame hs rfl
    | slew =>
      unfold commitEffect
      dsimp only
      split <;> exact hP.frame hs rfl

/-- COMMIT_TIME behind its gate. -/
theorem commitTime (hP : ScheduleInvariant P) {p : Port} {body : List Byte} (hs : P s) :
    P (throughGate p (Machine.commitAct p body) s) :=
  leaseGate_keeps (hP.onPort p) (fun h => hP.frame h (s.settleSessionEnds_schedule p))
    (fun t ht => hP.commitAct (hP.frame ht t.settleLeaseEnds_schedule)) hs

/-! ### Events -/

theorem look (hP : ScheduleInvariant P) {src : LookSource} (hs : P s) :
    Answers P (execLook src s) := by
  refine answers_next.mpr ?_
  split
  · exact hs
  · rename_i m _
    cases m with
    | presented stamp instant passed =>
      unfold lookAt
      dsimp only
      split
      · exact hP.frame (hP.looked stamp instant passed hs) rfl
      · exact hP.frame hs rfl
    | tableEvent =>
      unfold lookAt
      dsimp only
      split
      · exact hP.frame (hP.looked s.transit.stamp s.time.instant none hs) rfl
      · exact hP.frame hs rfl

theorem applyFiring_schedule (c : FiringClaim) (e : Entry) (s : State) :
    (applyFiring c e s).schedule =
      (s.place c.handle.slot (e.fired c) c.next.reference).schedule := by
  unfold applyFiring
  dsimp only
  split <;> simp

theorem firingClaim (hP : ScheduleInvariant P) (hs : P s) : Answers P (execFiringClaim s) := by
  refine answers_next.mpr ?_
  split
  · exact hs
  · rename_i m rest hfirings
    have hrest : rest ⊆ s.transit.firings := hfirings ▸ List.subset_cons_self m rest
    have hm : m ∈ s.transit.firings := hfirings ▸ List.mem_cons_self
    have htaken : ∀ {t : State}, P t → t.transit.firings = s.transit.firings →
        P (t.withClaims rest t.transit.results t.transit.timeClaims) := fun ht hf =>
      hP.taken rest _ ht (hf ▸ hrest) (List.Subset.refl _)
    dsimp only
    split
    · exact htaken hs rfl
    · rename_i e he
      have he : s.entry m.claim.handle.slot = some e := State.entry_of_current (s := s) he
      split
      · rename_i harmed
        refine hP.frame (htaken (hP.rewritten (ref := (m.claim.settled e).next.reference) hs he
          (.fired m hm harmed)) (by simp)) ?_
        rw [applyFiring_schedule]
        have hslot : (m.claim.settled e).handle = m.claim.handle := by
          rw [FiringClaim.settled_rest]
        rw [hslot, State.place_results, State.place_timeClaims, ← State.withClaims_place]
        rfl
      · exact htaken hs rfl

theorem applyResult (hP : ScheduleInvariant P) {c : ResultClaim} {e : Entry}
    (hc : c ∈ s.transit.results) (he : s.entry c.slot = some e) (hsearching : e.state = .searching)
    (hs : P s) : P (applyResult c e s) := by
  unfold Machine.applyResult
  split
  · exact hP.rewritten hs he (.found c hc _ ‹_› hsearching)
  · exact hP.frame (hP.rewritten hs he (.notFound hsearching)) (State.handEnded_schedule _ _ _ _)

/-- The result of a search is applied to its entry without a look at the claims on their way. -/
theorem applyResult_withClaims (c : ResultClaim) (e : Entry) (f : List FiringMsg)
    (r : List ResultClaim) (l : List TimeMsg) :
    Machine.applyResult c e (s.withClaims f r l) = (Machine.applyResult c e s).withClaims f r l := by
  unfold Machine.applyResult
  split <;> rw [State.withClaims_place]
  rfl

theorem applyResult_transit (c : ResultClaim) (e : Entry) :
    (Machine.applyResult c e s).transit.firings = s.transit.firings ∧
    (Machine.applyResult c e s).transit.results = s.transit.results ∧
    (Machine.applyResult c e s).transit.timeClaims = s.transit.timeClaims := by
  unfold Machine.applyResult
  split
  · simp
  · exact ⟨s.place_firings _ _ _, s.place_results _ _ _, s.place_timeClaims _ _ _⟩

theorem resultClaim (hP : ScheduleInvariant P) (hs : P s) : Answers P (execResultClaim s) := by
  refine answers_next.mpr ?_
  split
  · exact hs
  · rename_i c rest hresults
    have hrest : rest ⊆ s.transit.results := hresults ▸ List.subset_cons_self c rest
    have hc : c ∈ s.transit.results := hresults ▸ List.mem_cons_self
    have htaken : ∀ {t : State}, P t → t.transit.firings = s.transit.firings →
        t.transit.results = s.transit.results → t.transit.timeClaims = s.transit.timeClaims →
        P (t.withClaims s.transit.firings rest s.transit.timeClaims) := by
      intro t ht hf hr hl
      rw [← hf, ← hl]
      exact hP.taken _ rest ht (List.Subset.refl _) (hr ▸ hrest)
    dsimp only
    split
    · exact htaken hs rfl rfl rfl
    · rename_i e he
      split
      · rename_i hfits
        have happly := hP.applyResult hc (State.entry_of_current (s := s) he) hfits.1 hs
        obtain ⟨hf, hr, hl⟩ := applyResult_transit (s := s) c e
        exact applyResult_withClaims (s := s) c e s.transit.firings rest s.transit.timeClaims ▸
          htaken happly hf hr hl
      · exact htaken hs rfl rfl rfl

theorem searchRunComplete (hP : ScheduleInvariant P) (hs : P s) :
    Answers P (execSearchRunComplete s) := by
  refine answers_next.mpr ?_
  split
  · split
    · exact hs
    · exact hP.frame (hP.searched _ hs) rfl
  · exact hs

theorem stepClaim (hP : ScheduleInvariant P) (hs : P s) : Answers P (execStepClaim s) := by
  refine answers_next.mpr ?_
  split
  · exact hs
  · rename_i m hready
    split
    · exact hs
    · rename_i hstep
      split
      · refine hP.frame (hP.timeTaken m _ hs (State.timeClaimReady_head hready) ?_) rfl
        rw [hstep]; exact nofun
      · exact hs

/-- The treatment of an entry at its visit (R129 to R132). -/
theorem visitEntry (hP : ScheduleInvariant P) {r : Rescan} {i : SlotNo} {e : Entry}
    (he : s.entry i = some e) (hs : P s) : P (visitEntry r i e s) := by
  unfold Machine.visitEntry
  split
  · exact hP.rewritten hs he (.moved _ _ _ ‹_›)
  · exact hP.rewritten hs he (.movedSuspended _ _ _ ‹_›)
  · exact hP.rewritten hs he (.sought _ ‹_›)
  · exact hP.sought i _ hs
  · exact hs

theorem rescanVisit (hP : ScheduleInvariant P) (hs : P s) : Answers P (execRescanVisit s) := by
  refine answers_next.mpr ?_
  split
  · exact hs
  · split
    · dsimp only
      split
      · exact hP.frame (hP.visitEntry ‹_› hs) rfl
      · exact hP.frame hs rfl
    · exact hs

theorem releaseEntries (hP : ScheduleInvariant P) (p : Port) (hs : P s) : P (s.releaseEntries p) :=
  State.releaseEntries_keeps (fun _ i ht => hP.freed i ht) hs

/-- Release claims applied one after another (R38, R135). -/
theorem releases (hP : ScheduleInvariant P) (l : List Port) (hs : P s) :
    P (l.foldl State.releaseEntries s) := by
  induction l generalizing s with
  | nil => exact hs
  | cons p rest ih =>
    rw [List.foldl_cons]
    exact ih (hP.releaseEntries p hs)

theorem rescanEnd (hP : ScheduleInvariant P) (hs : P s) : Answers P (execRescanEnd s) := by
  refine answers_next.mpr ?_
  split
  · exact hs
  · split
    · exact hP.frame (hP.releases s.table.heldReleases (hP.frame (t := s.looksLost) hs rfl)) rfl
    · exact hs

/-- The epoch end of the slots leaves the claims on their way. -/
theorem epochEnd_claims (l : List SlotNo) (s : State) :
    let t := l.foldl epochEndSlot s
    t.transit.firings = s.transit.firings ∧ t.transit.results = s.transit.results ∧
      t.transit.timeClaims = s.transit.timeClaims :=
  epochEnd_keeps (P := fun t => t.transit.firings = s.transit.firings ∧
      t.transit.results = s.transit.results ∧ t.transit.timeClaims = s.transit.timeClaims)
    (fun t i _ _ _ ⟨hf, hr, hl⟩ => ⟨(t.place_firings i _ _).trans hf, (t.place_results i _ _).trans hr,
      (t.place_timeClaims i _ _).trans hl⟩) ⟨rfl, rfl, rfl⟩ l

/-- The slots can be ended first and the claim be taken off the way after them. -/
theorem epochEndSlots (hP : ScheduleInvariant P) {m : TimeMsg} {rest : List TimeMsg}
    (hclaims : s.transit.timeClaims = m :: rest) (l : List SlotNo) (hall : ∀ i, i ∈ l) (hs : P s) :
    P (l.foldl epochEndSlot (s.withClaims s.transit.firings s.transit.results rest)) := by
  have hended : P (l.foldl epochEndSlot s) :=
    epochEnd_keeps (fun t i e he hl ht => hP.frame (hP.rewritten (ref := .pastEpoch) ht he (.ended hl))
      (State.handEnded_schedule _ _ _ _)) hs l
  obtain ⟨hf, hr, hl⟩ := epochEnd_claims l s
  have htaken := hP.timeTaken m rest hended (hl.trans hclaims)
    fun _ i _ => epochEnd_leaves_none_live l s i _ (.inl (hall i))
  rwa [hf, hr, ← epochEndSlot_foldl_withClaims] at htaken

theorem epochEndClaim (hP : ScheduleInvariant P) (hs : P s) : Answers P (execEpochEndClaim s) := by
  refine answers_next.mpr ?_
  split
  · exact hs
  · rename_i m hready
    split
    · exact hs
    · exact hP.epochEndSlots (s := { s with transit := { s.transit with tableAfter := m.stamp } })
        (State.timeClaimReady_head hready) _ List.mem_finRange (hP.frame hs rfl)

theorem releaseClaim (hP : ScheduleInvariant P) {p : Port} (hs : P s) :
    Answers P (execReleaseClaim p s) := by
  refine answers_next.mpr ?_
  split
  · dsimp only
    split
    · exact hP.releaseEntries p (hP.frame hs rfl)
    · exact hP.frame hs rfl
  · exact hs

theorem tuAdvance (hP : ScheduleInvariant P) (hs : P s) : Answers P (execTuAdvance s) := by
  have hcount : P (countAdvance s) := hP.frame hs (countAdvance_schedule s)
  refine answers_next.mpr ?_
  rcases takeAdvance_cases (countAdvance s) with ⟨second, p, -, -, e⟩ | ⟨-, -, -, e⟩ | ⟨-, e⟩ <;> rw [e]
  · exact hP.stepped true second _ hcount
  · exact hP.epochEnded hcount
  · exact hP.frame hcount (moveInstant_schedule _ _)

theorem coldStart (hP : ScheduleInvariant P) {pf rst : Bool} {good : Option Straps} :
    Answers P (execColdStart pf rst s good) := by
  refine answers_next.mpr ?_
  have hcold := hP.cold s.pending s.freeIndex pf rst good.isSome (good.getD s.pins)
  split
  · split
    · exact hcold
    · exact hP.frame hcold rfl
  · exact hcold

/-! ### Every command and every step -/

theorem exec (hP : ScheduleInvariant P) (c : Instr) (s : State) (hs : P s) :
    Answers P (exec c s) := by
  cases c with
  | openReq p h a f => exact hP.request_frame hs (openAct_schedule p _)
  | closeReq p h a f => exact hP.request_frame hs fun _ => rfl
  | pingReq p h a f => exact hP.request_frame hs fun _ => rfl
  | statusReq p h a f => exact hP.request_frame hs fun _ => rfl
  | resyncReq p h a f => exact hP.request_frame hs fun _ => rfl
  | readTime p h a f => exact hP.request_frame hs fun _ => rfl
  | stageTime p h a f => exact hP.request_frame hs fun _ => rfl
  | commitTime p h a f => exact hP.request hs fun _ ht => hP.commitTime ht
  | cancelCommit p h a f => exact hP.request_frame hs (throughGate_schedule fun _ => rfl)
  | readTrim p h a f => exact hP.request_frame hs fun _ => rfl
  | setTrim p h a f => exact hP.request_frame hs (throughGate_schedule (setTrimAct_schedule p _))
  | acquire p h a f => exact hP.request_frame hs (acquireAct_schedule p _)
  | renew p h a f => exact hP.request_frame hs (leaseGate_schedule (renewAct_schedule p _))
  | release p h a f => exact hP.request_frame hs (leaseGate_schedule fun t => t.endLease_schedule _)
  | create p h a f => exact hP.request hs fun _ ht => hP.createAct ht
  | arm p h a f => exact hP.request hs fun _ ht => hP.asOwner (fun _ _ he => hP.armEntry ht he) ht
  | suspend p h a f => exact hP.request hs fun _ ht => hP.asOwner (fun _ _ he => hP.suspendEntry ht he) ht
  | resume p h a f => exact hP.request hs fun _ ht => hP.asOwner (fun _ _ he => hP.resumeEntry ht he) ht
  | delete p h a f =>
    exact hP.request hs fun _ ht => hP.asOwner (fun n _ _ => hP.onPort p _ _ (hP.freed n.slot ht)) ht
  | query p h a f =>
    exact hP.request hs fun _ ht => whenNormal_keeps (hP.onPort p)
      (withCurrent_keeps (hP.onPort p) fun n e ht => hP.frame ht (queryEntry_schedule p _ n e _)) ht
  | list p h a f => exact hP.request_frame hs (listAct_schedule p _)
  | kick p h a f => exact hP.request_frame hs (kickAct_schedule p h _)
  | setQuota p h a f => exact hP.request hs fun _ ht => hP.setQuotaAct ht
  | breakLease p h a f => exact hP.request_frame hs (breakLeaseAct_schedule p)
  | purge p h a f =>
    exact hP.request hs fun _ ht => whenNormal_keeps (hP.onPort p)
      (withCurrent_keeps (hP.onPort p) fun _ _ ht => hP.purgeEntry ht) ht
  | tuAdvance => exact hP.tuAdvance hs
  | look src => exact hP.look hs
  | firingClaim => exact hP.firingClaim hs
  | searchRunComplete => exact hP.searchRunComplete hs
  | resultClaim => exact hP.resultClaim hs
  | stepClaim => exact hP.stepClaim hs
  | rescanVisit => exact hP.rescanVisit hs
  | rescanEnd => exact hP.rescanEnd hs
  | epochEndClaim => exact hP.epochEndClaim hs
  | releaseClaim p => exact hP.releaseClaim hs
  | coldStart pf rst good => exact hP.coldStart
  | _ => exact (exec_schedule _ rfl s).imp fun _ h => hP.frame hs h

/-- A law that every move of the schedule keeps is kept by every step. -/
theorem keptByStep (hP : ScheduleInvariant P) : KeptByStep P :=
  keptByStep_of_exec (fun _ _ hs => hP.frame hs rfl) hP.exec fun _ hs => hP.frame hs rfl

end Sys2Proof.Machine.ScheduleInvariant
end

section
/-! PROOFS. Every step keeps the dues within the epoch, no live entry while VALID is false, and the
counts of the entries (O9). -/

namespace Sys2Proof.Machine

/-! ### Laws of every entry -/

theorem State.place_entries {E : Entry → Prop} {s : State} {i : SlotNo} {e : Entry} {ref : Reference}
    (hs : ∀ j x, s.entry j = some x → E x) (he : E e) (j : SlotNo) (x : Entry)
    (hx : (s.place i e ref).entry j = some x) : E x := by
  rw [State.place_entry_eq] at hx
  split at hx
  · cases hx; exact he
  · exact hs j x hx

theorem State.freeSlot_entries {E : Entry → Prop} {s : State} {i : SlotNo}
    (hs : ∀ j x, s.entry j = some x → E x) (j : SlotNo) (x : Entry)
    (hx : (s.freeSlot i).entry j = some x) : E x := by
  rw [State.freeSlot_entry_eq] at hx
  split at hx
  · cases hx
  · exact hs j x hx

/-! ### The entry of a CREATE body -/

/-- An entry described by a CREATE body (R27, R28). -/
theorem entryOf_some {p : Port} {body : List Byte} {e : Entry} (h : entryOf p body = some e) :
    ∃ plan pos orphan, planOf body = some (plan, pos) ∧ orphanPolicyOf (byteAt body 2) = some orphan ∧
      portSetOf (byteAt body (pos + 4)) ≠ PortSet.empty ∧
      e = { state := .held, owner := p, plan, repeatLimit := plan.limit (numberAt body pos 2)
            remaining := remainingOf (plan.limit (numberAt body pos 2)), fireTotal := 0
            tolerance := numberAt body (pos + 2) 2, delivery := portSetOf (byteAt body (pos + 4))
            orphan, wake := (byteAt body 2).getLsbD 5
            tag := BitVec.ofNat 32 (numberAt body (pos + 5) 4) } := by
  unfold entryOf at h
  obtain ⟨⟨plan, pos⟩, hplan, h⟩ := Option.bind_eq_some_iff.mp h
  obtain ⟨orphan, horphan, h⟩ := Option.bind_eq_some_iff.mp h
  dsimp only at h
  split at h
  · cases h
  · exact ⟨plan, pos, orphan, hplan, horphan, ‹_›, (Option.some.inj h).symm⟩

/-- A start within the epoch, where it is an absolute one. -/
def Start.InEpoch : Start → Prop
  | .absolute c => c ≤ Config.lastInstant
  | .relative _ => True

theorem Plan.startInEpoch_once {start : Start} {pol : StepPolicy} :
    (Plan.once start pol).StartInEpoch ↔ start.InEpoch := by
  cases start <;> rfl

theorem Plan.startInEpoch_periodic {start : Start} {period : Nat} {pol : StepPolicy} :
    (Plan.periodic start period pol).StartInEpoch ↔ start.InEpoch := by
  cases start <;> rfl

/-- A start that is read is a real date or an offset (R27). -/
theorem startAt_inEpoch {body : List Byte} {pos : Nat} {relative : Bool} {start : Start}
    (h : startAt body pos relative = some start) : start.InEpoch := by
  unfold startAt at h
  split at h
  · cases h; trivial
  · dsimp only at h
    split at h
    · cases h; exact Calendar.toCount_le ‹_›
    · cases h

theorem planOf_startInEpoch {body : List Byte} {plan : Plan} {pos : Nat}
    (h : planOf body = some (plan, pos)) : plan.StartInEpoch := by
  unfold planOf at h
  dsimp only at h
  split at h
  · obtain ⟨start, hstart, h⟩ := Option.bind_eq_some_iff.mp h
    obtain ⟨pol, -, h⟩ := Option.bind_eq_some_iff.mp h
    cases h
    exact Plan.startInEpoch_once.mpr (startAt_inEpoch hstart)
  · obtain ⟨start, hstart, h⟩ := Option.bind_eq_some_iff.mp h
    obtain ⟨pol, -, h⟩ := Option.bind_eq_some_iff.mp h
    split at h
    · cases h
    · cases h
      exact Plan.startInEpoch_periodic.mpr (startAt_inEpoch hstart)
  · obtain ⟨pattern, -, h⟩ := Option.bind_eq_some_iff.mp h
    cases h
    trivial
  · cases h

/-! ### The dues and starts within the epoch -/

/-- The due and the stored start of an entry lie within the epoch. -/
def Entry.InEpoch (e : Entry) : Prop := e.state.DueInEpoch ∧ e.plan.StartInEpoch

/-- An override of an ARM keeps the start within the epoch (R29). -/
theorem Plan.override_startInEpoch {body : List Byte} {plan plan' : Plan} (h : plan.StartInEpoch)
    (ho : (overrideOf body).bind plan.override = some plan') : plan'.StartInEpoch := by
  obtain ⟨o, ho, hplan⟩ := Option.bind_eq_some_iff.mp ho
  unfold overrideOf at ho
  split at ho
  · cases ho
    cases hplan
    exact h
  · obtain ⟨start, hstart, rfl⟩ := Option.map_eq_some_iff.mp ho
    have hin := startAt_inEpoch hstart
    cases plan <;> cases hplan
    · exact Plan.startInEpoch_once.mpr hin
    · exact Plan.startInEpoch_periodic.mpr hin

theorem EntryState.dueInEpoch_of_dueFits {st : EntryState} (h : st.dueFits = true)
    (hs : ∀ due, st ≠ .suspended (some due)) : st.DueInEpoch := by
  cases st with
  | armed due => simpa [EntryState.dueFits, EntryState.DueInEpoch] using h
  | suspended d =>
    cases d with
    | none => trivial
    | some due => exact absurd rfl (hs due)
  | _ => trivial

theorem StepPolicy.due_le {pol : StepPolicy} {due : Nat} {delta : Int} (h : due ≤ Config.lastInstant) :
    pol.due due delta ≤ Config.lastInstant := by
  cases pol with
  | absolute => exact h
  | relative =>
    show shiftDue due delta ≤ _
    unfold shiftDue
    dsimp only
    split
    · exact Nat.zero_le _
    · exact Nat.min_le_right _ _

/-- What follows a firing of k occurrences lies within the epoch (R57). -/
theorem Plan.onward_dueInEpoch (plan : Plan) (due k : Nat) : (plan.onward due k).DueInEpoch := by
  cases plan with
  | once => trivial
  | calendar => trivial
  | periodic start period pol =>
    unfold Plan.onward
    dsimp only
    split
    · trivial
    · exact Nat.le_of_not_lt ‹_›

theorem FiringClaim.nextFor_dueInEpoch {c : FiringClaim} (h : c.next.DueInEpoch) (e : Entry) :
    (c.nextFor e).DueInEpoch := by
  unfold FiringClaim.nextFor
  split
  · trivial
  · split
    · exact e.plan.onward_dueInEpoch _ _
    · exact h

theorem firingClaimFor_dueInEpoch (n : Handle) (e : Entry) (instant : Nat) (passed : Option Nat)
    (due : Nat) : (firingClaimFor n e instant passed due).next.DueInEpoch := by
  show (e.nextState due _).DueInEpoch
  unfold Entry.nextState
  split
  · trivial
  · exact e.plan.onward_dueInEpoch _ _

theorem FiredState.entryState_dueInEpoch {n : FiredState} (h : n.DueInEpoch) :
    n.entryState.DueInEpoch := by
  cases n <;> exact h

/-- Every claim of a look is the claim computed for an entry (R50). -/
theorem exists_of_mem_lookClaims {s : State} {instant : Nat} {passed : Option Nat} {c : FiringClaim}
    (h : c ∈ lookClaims s instant passed) :
    ∃ n e due, c = firingClaimFor n e instant passed due := by
  obtain ⟨x, -, h⟩ := List.mem_filterMap.mp h
  obtain ⟨e, -, rfl⟩ := Option.map_eq_some_iff.mp h
  exact ⟨_, e, _, rfl⟩

/-- A property of every computed claim holds of the claims a look adds. -/
theorem forall_mem_looked {F : FiringClaim → Prop} {s : State} {stamp instant : Nat}
    {passed : Option Nat} (hF : ∀ n e due, F (firingClaimFor n e instant passed due))
    (hs : ∀ m ∈ s.transit.firings, F m.claim) : ∀ m ∈ s.transit.firings ++
      (lookClaims s instant passed).map fun c => (⟨stamp, c⟩ : FiringMsg), F m.claim := by
  intro m hm
  rcases List.mem_append.mp hm with hm | hm
  · exact hs m hm
  · obtain ⟨c, hc, rfl⟩ := List.mem_map.mp hm
    obtain ⟨n, e, due, rfl⟩ := exists_of_mem_lookClaims hc
    exact hF n e due

/-- A search finds no second beyond the epoch (R67). -/
theorem searchResult_le {p : Pattern} {ref : Reference} {second : Nat}
    (h : searchResult p ref = some second) : second ≤ Config.lastInstant := by
  cases ref with
  | pastEpoch => cases h
  | second f =>
    unfold searchResult at h
    dsimp only at h
    split at h
    · cases h
    · split at h
      · rename_i hle
        cases h
        exact hle.2.trans lastSecond_le_lastInstant
      · cases h

theorem jobResult_found_le {s : State} {j : Job} {second : Nat}
    (h : (jobResult s j).found = some second) : second ≤ Config.lastInstant := by
  unfold jobResult at h
  dsimp only at h
  split at h
  · split at h
    · exact searchResult_le h
    · cases h
  · cases h

/-- However an entry changes where it stands, its due and its start stay within the epoch. -/
theorem State.Rewrites.inEpoch {s : State} {e e' : Entry} (h : s.Rewrites e e') (hs : DuesInEpoch s)
    (he : e.InEpoch) : e'.InEpoch := by
  obtain ⟨hdue, hstart⟩ := he
  cases h with
  | armed body plan _ _ hplan hfits =>
    refine ⟨EntryState.dueInEpoch_of_dueFits hfits fun due => ?_, Plan.override_startInEpoch hstart hplan⟩
    cases plan <;> exact nofun
  | suspended st hst =>
    refine ⟨?_, hstart⟩
    unfold Entry.suspended at hst
    split at hst <;> cases hst
    · trivial
    · rename_i due _ harmed _
      rw [harmed] at hdue
      exact hdue
    · trivial
  | resumed st hst =>
    refine ⟨?_, hstart⟩
    unfold EntryState.resumed at hst
    split at hst <;> cases hst
    · rename_i due hsusp
      rw [hsusp] at hdue
      exact hdue
    · trivial
  | fired m hm =>
    refine ⟨FiredState.entryState_dueInEpoch ?_, hstart⟩
    rw [FiringClaim.settled_next]
    exact FiringClaim.nextFor_dueInEpoch (hs.firings m hm) e
  | found c hc second hfound => exact ⟨hs.results c hc second hfound, hstart⟩
  | notFound => exact ⟨trivial, hstart⟩
  | ended => exact ⟨trivial, hstart⟩
  | moved pol due delta harmed =>
    rw [harmed] at hdue
    exact ⟨StepPolicy.due_le hdue, hstart⟩
  | movedSuspended pol due delta hsusp =>
    rw [hsusp] at hdue
    exact ⟨StepPolicy.due_le hdue, hstart⟩
  | sought => exact ⟨trivial, hstart⟩

theorem duesInEpoch_invariant : ScheduleInvariant DuesInEpoch where
  frame := by
    rintro s t hs h
    obtain ⟨-, -, -, -, hf, hr, -, -⟩ := State.schedule_eq_iff.mp h
    exact ⟨fun i e he => hs.entries i e (State.entry_of_schedule h i ▸ he),
      fun m hm => hs.firings m (hf ▸ hm), fun c hc => hs.results c (hr ▸ hc)⟩
  created := by
    intro s p body i e ref hs he _ _
    obtain ⟨plan, pos, orphan, hplan, -, -, rfl⟩ := entryOf_some he
    exact ⟨State.place_entries hs.entries ⟨trivial, planOf_startInEpoch hplan⟩,
      by simpa using hs.firings, by simpa using hs.results⟩
  rewritten := fun {s i e e' ref} hs he h => ⟨State.place_entries hs.entries (h.inEpoch hs (hs.entries i e he)),
    by simpa using hs.firings, by simpa using hs.results⟩
  freed := fun i hs => ⟨State.freeSlot_entries hs.entries, hs.firings, hs.results⟩
  sought := fun _ _ hs => ⟨hs.entries, hs.firings, hs.results⟩
  quota := fun _ _ hs _ _ => ⟨hs.entries, hs.firings, hs.results⟩
  looked := fun stamp instant passed hs => ⟨hs.entries,
    forall_mem_looked (F := fun c => c.next.DueInEpoch)
      (fun n e due => firingClaimFor_dueInEpoch n e instant passed due) hs.firings, hs.results⟩
  searched := by
    intro s j hs
    refine ⟨hs.entries, hs.firings, fun c hc second hfound => ?_⟩
    rcases List.mem_append.mp hc with hc | hc
    · exact hs.results c hc second hfound
    · rw [List.mem_singleton.mp hc] at hfound
      exact jobResult_found_le hfound
  taken := fun _ _ hs hf hr => ⟨hs.entries, fun m hm => hs.firings m (hf hm),
    fun c hc => hs.results c (hr hc)⟩
  timeTaken := fun _ _ hs _ _ => ⟨hs.entries, hs.firings, hs.results⟩
  stepped := fun _ _ _ hs => ⟨hs.entries, hs.firings, hs.results⟩
  epochEnded := fun hs => ⟨hs.entries, hs.firings, hs.results⟩
  cold := fun _ _ _ _ _ _ => ⟨fun i e he => by simp at he, fun _ hm => by simp [State.cold, Transit.empty] at hm,
    fun _ hc => by simp [State.cold, Transit.empty] at hc⟩

/-! ### No live entry while VALID is false -/

/-- An entry that becomes live was live, or the time is VALID (R24). -/
theorem State.Rewrites.live {s : State} {e e' : Entry} (h : s.Rewrites e e')
    (hl : e'.state.live = true) : e.state.live = true ∨ s.time.valid = true := by
  cases h with
  | armed _ _ _ hvalid => exact .inr hvalid
  | resumed _ _ hvalid => exact .inr hvalid
  | suspended st hst =>
    unfold Entry.suspended at hst
    split at hst
    · exact .inl (by simp [*, EntryState.live])
    · exact .inl (by simp [*, EntryState.live])
    · exact .inl (by simp [*, EntryState.live])
    · cases hst
  | notFound => cases hl
  | ended => cases hl
  | fired _ _ h => exact .inl (by rw [h]; rfl)
  | found _ _ _ _ h => exact .inl (by rw [h]; rfl)
  | moved _ _ _ h => exact .inl (by rw [h]; rfl)
  | movedSuspended _ _ _ h => exact .inl (by rw [h]; rfl)
  | sought _ h => exact .inl (by rw [h]; rfl)

theorem validLaw_invariant : ScheduleInvariant ValidLaw where
  frame := by
    intro s t hs h hv hc i e he
    obtain ⟨-, -, -, -, -, -, hclaims, hvalid⟩ := State.schedule_eq_iff.mp h
    exact hs (hvalid ▸ hv) (hclaims ▸ hc) i e (State.entry_of_schedule h i ▸ he)
  created := by
    intro s p body i e ref hs he _ _ hv hc
    obtain ⟨plan, pos, orphan, -, -, -, rfl⟩ := entryOf_some he
    exact State.place_entries (E := fun e => e.state.live = false)
      (hs (by simpa using hv) (by simpa using hc)) rfl
  rewritten := by
    intro s i e e' ref hs he h hv hc
    have hv' : s.time.valid = false := by simpa using hv
    have hnone := hs hv' (by simpa using hc)
    refine State.place_entries (E := fun e => e.state.live = false) hnone ?_
    by_contra hl
    rcases h.live (by simpa using hl) with hlive | hvalid
    · simp [hnone i e he] at hlive
    · simp [hv'] at hvalid
  freed := fun i hs hv hc => State.freeSlot_entries (E := fun e => e.state.live = false) (hs hv hc)
  sought := fun _ _ hs => hs
  quota := fun _ _ hs _ _ => hs
  looked := fun _ _ _ hs => hs
  searched := fun _ hs => hs
  taken := fun _ _ hs _ _ => hs
  timeTaken := by
    intro s m rest hs hclaims hend hv hc
    by_cases hm : m.claim = .epochEnd
    · exact hend hm
    · refine hs hv ?_
      rw [hclaims]
      exact List.forall_mem_cons.mpr ⟨hm, hc⟩
  stepped := fun _ _ _ _ hv => by cases hv
  epochEnded := fun {s} _ _ hc =>
    absurd rfl (hc _ (List.mem_append_right s.transit.timeClaims List.mem_cons_self))
  cold := fun _ _ _ _ _ _ _ _ i e he => by simp at he

/-! ### The counts of an entry -/

theorem remainingOf_eq_none_iff {limit : Nat} : remainingOf limit = none ↔ limit = 0 := by
  unfold remainingOf; split <;> simp [*]

theorem remainingOf_of_pos {limit : Nat} (h : 0 < limit) : remainingOf limit = some limit :=
  if_neg h.ne'

/-- A remaining count set anew from the limit obeys R22 in every state but that of its end. -/
theorem Entry.CountsLaw.renewed {e : Entry} (hremaining : e.remaining = remainingOf e.repeatLimit)
    (hstate : e.state ≠ .spent .countDone) (htotal : e.fireTotal ≤ 65535)
    (honce : ∀ start pol, e.plan = .once start pol → e.repeatLimit = 1) : e.CountsLaw where
  once := honce
  unlimited := fun h => ⟨hremaining.trans (remainingOf_eq_none_iff.mpr h), hstate⟩
  limited := fun h => ⟨_, hremaining.trans (remainingOf_of_pos h), Nat.le_refl _,
    iff_of_false h.ne' hstate⟩
  total := htotal

/-- A change of state that neither reaches nor leaves the end COUNT_DONE keeps the counts. -/
theorem Entry.CountsLaw.withState {e : Entry} {st : EntryState} (h : e.CountsLaw)
    (hold : e.state ≠ .spent .countDone) (hnew : st ≠ .spent .countDone) :
    ({ e with state := st } : Entry).CountsLaw where
  once := h.once
  unlimited := fun h0 => ⟨(h.unlimited h0).1, hnew⟩
  limited := fun hpos => by
    obtain ⟨r, hr, hle, hiff⟩ := h.limited hpos
    exact ⟨r, hr, hle, hiff.trans (iff_of_false hold hnew)⟩
  total := h.total

/-- An override leaves the kind of an entry as it is. -/
theorem Plan.override_once {plan plan' : Plan} {o : Option Start} (h : plan.override o = some plan')
    {start : Start} {pol : StepPolicy} (hp : plan' = .once start pol) :
    ∃ start, plan = .once start pol := by
  subst hp
  cases o with
  | none => exact ⟨start, Option.some.inj h⟩
  | some s => cases plan <;> cases h; exact ⟨_, rfl⟩

/-- Only a ONCE entry has no occurrence after the next (R55 to R58). -/
theorem Plan.onward_ne_countDone {plan : Plan} (h : ∀ start pol, plan ≠ .once start pol) (due k : Nat) :
    plan.onward due k ≠ .spent .countDone := by
  cases plan with
  | once start pol => exact absurd rfl (h start pol)
  | calendar => exact nofun
  | periodic start period pol =>
    unfold Plan.onward
    dsimp only
    split <;> exact nofun

/-- A firing ends its entry with COUNT_DONE exactly when it uses up what remains (R22). -/
theorem FiringClaim.nextFor_countDone_iff {c : FiringClaim} {e : Entry}
    (honce : ∀ start pol, e.plan = .once start pol → runsOut e.remaining c.occurrences = true) :
    c.nextFor e = .spent .countDone ↔ runsOut e.remaining c.occurrences = true := by
  unfold FiringClaim.nextFor
  by_cases hr : runsOut e.remaining c.occurrences = true
  · simp [hr]
  · have hkind : ∀ start pol, e.plan ≠ .once start pol := fun start pol hp => hr (honce start pol hp)
    by_cases hn : c.next = .spent .countDone
    · simp [hr, hn, Plan.onward_ne_countDone hkind]
    · simp [hr, hn]

theorem FiredState.entryState_countDone_iff {n : FiredState} :
    n.entryState = .spent .countDone ↔ n = .spent .countDone := by
  cases n <;> simp [FiredState.entryState]

/-- A firing of at least one occurrence keeps the counts of an entry that has not ended (R22, R56). -/
theorem Entry.CountsLaw.fired {e : Entry} {c : FiringClaim} (h : e.CountsLaw) (hk : 1 ≤ c.occurrences) :
    (e.fired (c.settled e)).CountsLaw := by
  have honce : ∀ start pol, e.plan = .once start pol → runsOut e.remaining c.occurrences = true := by
    intro start pol hp
    have hlimit := h.once start pol hp
    obtain ⟨r, hr, hle, -⟩ := h.limited (by omega)
    simp only [hr, runsOut, decide_eq_true_eq]
    omega
  have hend : (e.fired (c.settled e)).state = .spent .countDone ↔
      runsOut e.remaining c.occurrences = true := by
    rw [← FiringClaim.nextFor_countDone_iff honce, ← c.settled_next e]
    exact FiredState.entryState_countDone_iff
  have hoccurrences : (c.settled e).occurrences = c.occurrences := by rw [c.settled_rest e]
  refine ⟨h.once, fun h0 => ?_, fun hpos => ?_, Nat.min_le_left _ _⟩
  · have hnone := (h.unlimited h0).1
    refine ⟨by simp [Entry.fired, hnone], fun hdone => ?_⟩
    simpa [hnone, runsOut] using hend.mp hdone
  · obtain ⟨r, hr, hle, -⟩ := h.limited hpos
    refine ⟨r - c.occurrences, by simp [Entry.fired, hr, hoccurrences],
      (Nat.sub_le _ _).trans hle, ?_⟩
    rw [hend]
    simp [hr, runsOut, Nat.sub_eq_zero_iff_le]

/-- However an entry changes where it stands, its counts obey R22. -/
theorem State.Rewrites.countsLaw {s : State} {e e' : Entry} (h : s.Rewrites e e')
    (hfirings : ∀ m ∈ s.transit.firings, 1 ≤ m.claim.occurrences) (he : e.CountsLaw) :
    e'.CountsLaw := by
  cases h with
  | armed body plan _ _ hplan _ =>
    obtain ⟨o, -, hplan⟩ := Option.bind_eq_some_iff.mp hplan
    refine Entry.CountsLaw.renewed rfl ?_ he.total fun start pol hp => ?_
    · cases plan <;> exact nofun
    · obtain ⟨start', hp'⟩ := Plan.override_once hplan hp
      exact he.once start' pol hp'
  | suspended st hst =>
    unfold Entry.suspended at hst
    split at hst <;> cases hst <;> exact he.withState (by simp [*]) nofun
  | resumed st hst =>
    unfold EntryState.resumed at hst
    split at hst <;> cases hst <;> exact he.withState (by simp [*]) nofun
  | fired m hm => exact he.fired (hfirings m hm)
  | found _ _ _ _ h => exact he.withState (by simp [h]) nofun
  | notFound h => exact he.withState (by simp [h]) nofun
  | ended h => exact he.withState (fun hdone => by simp [hdone, EntryState.live] at h) nofun
  | moved _ _ _ h => exact he.withState (by simp [h]) nofun
  | movedSuspended _ _ _ h => exact he.withState (by simp [h]) nofun
  | sought _ h => exact he.withState (by simp [h]) nofun

/-- An entry that CREATE describes obeys R22. -/
theorem entryOf_countsLaw {p : Port} {body : List Byte} {e : Entry} (h : entryOf p body = some e) :
    e.CountsLaw := by
  obtain ⟨plan, pos, orphan, -, -, -, rfl⟩ := entryOf_some h
  refine Entry.CountsLaw.renewed rfl nofun (Nat.zero_le _) fun start pol hp => ?_
  cases plan <;> cases hp
  rfl

theorem firingClaimFor_occurrences_pos (n : Handle) (e : Entry) (instant : Nat) (passed : Option Nat)
    (due : Nat) : 1 ≤ (firingClaimFor n e instant passed due).occurrences := by
  show 1 ≤ e.plan.occurrences instant due
  cases e.plan <;> simp [Plan.occurrences, Machine.occurrences]

theorem countsLaw_invariant : ScheduleInvariant CountsLaw where
  frame := by
    rintro s t hs h
    obtain ⟨-, -, -, -, hf, -, -, -⟩ := State.schedule_eq_iff.mp h
    exact ⟨fun i e he => hs.entries i e (State.entry_of_schedule h i ▸ he),
      fun m hm => hs.firings m (hf ▸ hm)⟩
  created := fun hs he _ _ => ⟨State.place_entries hs.entries (entryOf_countsLaw he),
    by simpa using hs.firings⟩
  rewritten := fun {s i e e' ref} hs he h =>
    ⟨State.place_entries hs.entries (h.countsLaw hs.firings (hs.entries i e he)),
      by simpa using hs.firings⟩
  freed := fun i hs => ⟨State.freeSlot_entries hs.entries, hs.firings⟩
  sought := fun _ _ hs => ⟨hs.entries, hs.firings⟩
  quota := fun _ _ hs _ _ => ⟨hs.entries, hs.firings⟩
  looked := fun stamp instant passed hs => ⟨hs.entries,
    forall_mem_looked (F := fun c => 1 ≤ c.occurrences)
      (fun n e due => firingClaimFor_occurrences_pos n e instant passed due) hs.firings⟩
  searched := fun _ hs => ⟨hs.entries, hs.firings⟩
  taken := fun _ _ hs hf _ => ⟨hs.entries, fun m hm => hs.firings m (hf hm)⟩
  timeTaken := fun _ _ hs _ _ => ⟨hs.entries, hs.firings⟩
  stepped := fun _ _ _ hs => ⟨hs.entries, hs.firings⟩
  epochEnded := fun hs => ⟨hs.entries, hs.firings⟩
  cold := fun _ _ _ _ _ _ => ⟨fun i e he => by simp at he, fun _ hm => by simp [State.cold, Transit.empty] at hm⟩

theorem KeptByStep.and {P Q : State → Prop} (hP : KeptByStep P) (hQ : KeptByStep Q) :
    KeptByStep fun s => P s ∧ Q s :=
  fun s s' hs h => ⟨hP s s' hs.1 h, hQ s s' hs.2 h⟩

/-- Settles O9: each of the three laws is kept by every move of the schedule. -/
theorem entryTimesLawsKept : Obligations.EntryTimesLawsKept :=
  ⟨duesInEpoch_invariant.keptByStep.and validLaw_invariant.keptByStep, countsLaw_invariant.keptByStep⟩

end Sys2Proof.Machine
end

section
/-! PROOFS. Every step keeps each port within its quota (O8). -/

namespace Sys2Proof.Machine

/-! ### The owned counts after a change of one slot -/

theorem State.setSlot_ownedCount (s : State) (i : SlotNo) (x : Slot) (p : Port) :
    (s.setSlot i x).ownedCount p =
      s.ownedCount p - (if (s.slot i).ownedBy p then 1 else 0) + (if x.ownedBy p then 1 else 0) := by
  have hi : i.val < s.table.slots.toList.length := by simp
  have hget : s.table.slots.toList[i.val] = s.slot i := by
    simp [State.slot, Vector.get_eq_getElem]
  have hset : (s.setSlot i x).table.slots.toList = s.table.slots.toList.set i.val x := by
    simp [State.setSlot, Vector.toList]
  unfold State.ownedCount
  rw [hset, List.countP_set hi, hget]

/-- A slot that a port owns is counted among its own. -/
theorem State.ownedCount_pos {s : State} {i : SlotNo} {p : Port} (h : (s.slot i).ownedBy p = true) :
    0 < s.ownedCount p := by
  refine List.countP_pos_iff.mpr ⟨s.slot i, ?_, h⟩
  simp [State.slot, Vector.get_eq_getElem]

theorem State.ownedCount_of_slots {s t : State} (h : t.table.slots = s.table.slots) (p : Port) :
    t.ownedCount p = s.ownedCount p := by unfold State.ownedCount; rw [h]

theorem State.place_ownedCount (s : State) (i : SlotNo) (e : Entry) (ref : Reference) (p : Port) :
    (s.place i e ref).ownedCount p =
      s.ownedCount p - (if (s.slot i).ownedBy p then 1 else 0) + (if e.owner = p then 1 else 0) := by
  rw [State.ownedCount_of_slots (congrArg Table.slots (s.place_table i e ref)),
    State.setSlot_ownedCount]
  simp [Slot.ownedBy]

/-- An entry written in place of one of the same owner leaves every count as it was. -/
theorem State.place_ownedCount_of_owner {s : State} {i : SlotNo} {e e' : Entry} {ref : Reference}
    (he : s.entry i = some e) (ho : e'.owner = e.owner) (p : Port) :
    (s.place i e' ref).ownedCount p = s.ownedCount p := by
  have hslot : (s.slot i).ownedBy p = decide (e.owner = p) := by
    simp only [Slot.ownedBy, show (s.slot i).entry = some e from he]
    exact Bool.beq_eq_decide_eq _ _
  rw [State.place_ownedCount, ho, hslot]
  by_cases hp : e.owner = p
  · have hpos := State.ownedCount_pos (hslot.trans (decide_eq_true hp))
    simp only [hp, decide_true, if_true]
    omega
  · simp [hp]

/-- An entry written in a FREE slot is one more of its owner's. -/
theorem State.place_ownedCount_of_free {s : State} {i : SlotNo} {e : Entry} {ref : Reference}
    (he : s.entry i = none) (p : Port) :
    (s.place i e ref).ownedCount p = s.ownedCount p + (if e.owner = p then 1 else 0) := by
  have hslot : (s.slot i).ownedBy p = false := by
    simp only [Slot.ownedBy, show (s.slot i).entry = none from he]
  simp [State.place_ownedCount, hslot]

theorem State.freeSlot_ownedCount_le (s : State) (i : SlotNo) (p : Port) :
    (s.freeSlot i).ownedCount p ≤ s.ownedCount p := by
  show ((s.leaveLists i).setSlot i _).ownedCount p ≤ _
  rw [State.setSlot_ownedCount]
  exact Nat.sub_le _ _

/-! ### The law -/

/-- An entry keeps its owner, however it changes where it stands. -/
theorem State.Rewrites.owner {s : State} {e e' : Entry} (h : s.Rewrites e e') : e'.owner = e.owner := by
  cases h <;> rfl

theorem quotaLaw_invariant : ScheduleInvariant QuotaLaw where
  frame := by
    rintro s t hs h
    obtain ⟨hslots, hquota, -⟩ := State.schedule_eq_iff.mp h
    refine ⟨fun p => ?_, hquota ▸ hs.sum⟩
    rw [State.ownedCount_of_slots hslots, hquota]
    exact hs.owned p
  created := by
    intro s p body i e ref hs he hfree hroom
    obtain ⟨plan, pos, orphan, -, -, -, rfl⟩ := entryOf_some he
    refine ⟨fun q => ?_, by simpa using hs.sum⟩
    rw [State.place_ownedCount_of_free hfree, State.place_quota]
    split
    · rename_i hq
      cases hq
      exact hroom
    · exact hs.owned q
  rewritten := fun hs he h => ⟨fun p => by
      rw [State.place_ownedCount_of_owner he h.owner, State.place_quota]
      exact hs.owned p, by simpa using hs.sum⟩
  freed := fun {s} i hs => ⟨fun p => (s.freeSlot_ownedCount_le i p).trans (hs.owned p), hs.sum⟩
  sought := fun _ _ hs => ⟨hs.owned, hs.sum⟩
  quota := by
    intro s q n hs hsum hn
    refine ⟨fun p => ?_, hsum⟩
    show s.ownedCount p ≤ (s.table.quota.set q n).get p
    rw [Quad.get_set]
    split
    · subst_vars; exact hn
    · exact hs.owned p
  looked := fun _ _ _ hs => ⟨hs.owned, hs.sum⟩
  searched := fun _ hs => ⟨hs.owned, hs.sum⟩
  taken := fun _ _ hs _ _ => ⟨hs.owned, hs.sum⟩
  timeTaken := fun _ _ hs _ _ => ⟨hs.owned, hs.sum⟩
  stepped := fun _ _ _ hs => ⟨hs.owned, hs.sum⟩
  epochEnded := fun hs => ⟨hs.owned, hs.sum⟩
  cold := fun _ _ _ _ _ _ => ⟨fun p => by simp, show 64 ≤ 64 from Nat.le_refl _⟩

/-- Settles O8: CREATE stays below the quota, SET_QUOTA above the owned count, and no other move of the
schedule gives a port an entry. -/
theorem quotaLawKept : Obligations.QuotaLawKept := quotaLaw_invariant.keptByStep

end Sys2Proof.Machine
end

section
/-! PROOFS. The checks of the entry requests (O34), and CREATE (O37). -/

namespace Sys2Proof.Machine

/-! ### The way of an entry request to its act -/

/-- An entry request is `request` around an act behind the check of the table's mode (R25). -/
theorem exec_entryRequest (i : Instr) (r : RequestForm) (hi : i.request = some r)
    (he : r.entry = true) : ∃ act, ∀ s : State, exec i s =
      .next (request r.phase r.port r.header r.body r.lengthOk true (whenNormal r.port act) s) := by
  cases i <;> simp only [Instr.request, Option.some.injEq, reduceCtorEq] at hi <;> subst hi <;>
    first
    | exact absurd he Bool.false_ne_true
    | exact ⟨_, fun s => congrArg Host.Outcome.next (request_congr (by first | rfl | simp))⟩

section Served

variable {s : State} {p : Port} {h : Header} {a b x : Byte} {args more : List Byte}

theorem exec_create (ht : s.takesOpen p h (0x40 :: args)) (hl : createLengthOk (0x40 :: args) = true) :
    exec (.create p h args) s =
      .next (createAct p (0x40 :: args) (s.serving p h (0x40 :: args))) :=
  congrArg Host.Outcome.next (serve_of_takes ht.1 hl fun _ => ht.2)

theorem exec_arm (hl : more.length = 0 ∨ more.length = 4 ∨ more.length = 7)
    (ht : s.takesOpen p h (0x41 :: a :: b :: more)) :
    exec (.arm p h (a :: b :: more)) s =
      .next (asOwner p (0x41 :: a :: b :: more) (armEntry p (0x41 :: a :: b :: more))
        (s.serving p h (0x41 :: a :: b :: more))) :=
  congrArg Host.Outcome.next (serve_of_takes ht.1 (by simpa [or_assoc] using hl) fun _ => ht.2)

theorem exec_suspend (ht : s.takesOpen p h [0x42, a, b]) : exec (.suspend p h [a, b]) s =
    .next (asOwner p [0x42, a, b] (suspendEntry p) (s.serving p h [0x42, a, b])) :=
  congrArg Host.Outcome.next (serve_of_takes ht.1 rfl fun _ => ht.2)

theorem exec_resume (ht : s.takesOpen p h [0x43, a, b]) : exec (.resume p h [a, b]) s =
    .next (asOwner p [0x43, a, b] (resumeEntry p) (s.serving p h [0x43, a, b])) :=
  congrArg Host.Outcome.next (serve_of_takes ht.1 rfl fun _ => ht.2)

theorem exec_delete (ht : s.takesOpen p h [0x44, a, b]) : exec (.delete p h [a, b]) s =
    .next (asOwner p [0x44, a, b] (fun n _ s => (s.freeSlot n.slot).respond p [0x00])
      (s.serving p h [0x44, a, b])) :=
  congrArg Host.Outcome.next (serve_of_takes ht.1 rfl fun _ => ht.2)

theorem exec_query (ht : s.takesOpen p h [0x45, a, b, x]) : exec (.query p h [a, b, x]) s =
    .next (whenNormal p (withCurrent p [0x45, a, b, x] (queryEntry p [0x45, a, b, x]))
      (s.serving p h [0x45, a, b, x])) :=
  congrArg Host.Outcome.next (serve_of_takes ht.1 rfl fun _ => ht.2)

theorem exec_list (ht : s.takesOpen p h [0x46, a, b]) : exec (.list p h [a, b]) s =
    .next (listAct p [0x46, a, b] (s.serving p h [0x46, a, b])) :=
  congrArg Host.Outcome.next (serve_of_takes ht.1 rfl fun _ => ht.2)

theorem exec_purge (ht : s.takesOpen p h [0x53, a, b]) : exec (.purge p h [a, b]) s =
    .next (whenNormal p (withCurrent p [0x53, a, b] (purgeEntry p)) (s.serving p h [0x53, a, b])) :=
  congrArg Host.Outcome.next (serve_of_takes ht.1 rfl fun _ => ht.2)

end Served

section Gates

variable {s : State} {p : Port} {h : Header} {body : List Byte} {n : Handle} {e : Entry}
  {act : Handle → Entry → State → State}

/-- A request of an entry's owner reaches its act. -/
theorem asOwner_of_owner (hm : s.table.mode = .normal) (hn : handleAt body 1 = some n)
    (he : s.current n = some e) (ho : e.owner = p) : asOwner p body act s = act n e s := by
  unfold asOwner
  rw [whenNormal_of_normal hm, withCurrent_of_current hn he, if_pos ho]

/-- An owner's request from another port is refused DENIED. -/
theorem asOwner_of_other (hm : s.table.mode = .normal) (hn : handleAt body 1 = some n)
    (he : s.current n = some e) (ho : e.owner ≠ p) : asOwner p body act s = s.respond p [0x03] := by
  unfold asOwner
  rw [whenNormal_of_normal hm, withCurrent_of_current hn he, if_neg ho]
  rfl

/-- An owner's request whose handle is not current is refused BAD_HANDLE. -/
theorem asOwner_of_bad (hm : s.table.mode = .normal) (hn : (handleAt body 1).bind s.current = none) :
    asOwner p body act s = s.respond p [0x09] := by
  unfold asOwner
  rw [whenNormal_of_normal hm, withCurrent_of_bad hn]

theorem purgeEntry_of_other (hp : p ≠ s.supervisor) : purgeEntry p n e s = s.respond p [0x03] := by
  unfold purgeEntry
  rw [if_pos hp]
  rfl

end Gates

/-- Settles O34: each check is the one of `whenNormal`, `withCurrent`, `asOwner` or `purgeEntry` that the
request meets first. -/
theorem entryRequestChecks : Obligations.EntryRequestChecks := by
  refine ⟨?_, ?_, ?_⟩
  · intro i r s hi hentry hphase hlength ht hm
    obtain ⟨act, hexec⟩ := exec_entryRequest i r hi hentry
    rw [hexec, hphase, request_whole, serve_of_takes ht.1 hlength fun _ => ht.2,
      whenNormal_of_rescan (s := s.serving r.port r.header r.body) hm]
    rfl
  · intro s p h a b x more hm hbad
    have howner (code : Byte) (more : List Byte) (act : Handle → Entry → State → State) :
        asOwner p (code :: a :: b :: more) act (s.serving p h (code :: a :: b :: more)) =
          s.answered p h (code :: a :: b :: more) [0x09] := asOwner_of_bad hm hbad
    have hany (code : Byte) (more : List Byte) (act : Handle → Entry → State → State) :
        whenNormal p (withCurrent p (code :: a :: b :: more) act)
            (s.serving p h (code :: a :: b :: more)) =
          s.answered p h (code :: a :: b :: more) [0x09] :=
      (whenNormal_of_normal (s := s.serving p h _) hm).trans (withCurrent_of_bad hbad)
    refine ⟨fun hl ht => ?_, fun ht => ?_, fun ht => ?_, fun ht => ?_, fun ht => ?_, fun ht => ?_⟩
    · rw [exec_arm hl ht, howner]
    · rw [exec_suspend ht, howner]
    · rw [exec_resume ht, howner]
    · rw [exec_delete ht, howner]
    · rw [exec_query ht, hany]
    · rw [exec_purge ht, hany]
  · intro s p h n e more hm he
    refine ⟨fun ho => ?_, fun hp ht => ?_⟩
    · have hdenied (code : Byte) (more : List Byte) (act : Handle → Entry → State → State) :
          asOwner p (code :: byteOf n.slot.val :: byteOf n.gen.val :: more) act
            (s.serving p h (code :: byteOf n.slot.val :: byteOf n.gen.val :: more)) =
          s.answered p h (code :: byteOf n.slot.val :: byteOf n.gen.val :: more) [0x03] :=
        asOwner_of_other hm (handleAt_handle code n more) he ho
      refine ⟨fun hl ht => ?_, fun ht => ?_, fun ht => ?_, fun ht => ?_⟩
      · rw [exec_arm hl ht, hdenied]
      · rw [exec_suspend ht, hdenied]
      · rw [exec_resume ht, hdenied]
      · rw [exec_delete ht, hdenied]
    · rw [exec_purge ht, whenNormal_of_normal (by exact hm),
        withCurrent_of_current (handleAt_handle _ n []) (by exact he), purgeEntry_of_other (by exact hp)]
      rfl

/-! ### CREATE -/

/-- The slot CREATE takes is the lowest-numbered FREE one (R28). -/
theorem State.freeSlot?_eq_some_iff {s : State} {i : SlotNo} :
    s.freeSlot? = some i ↔ s.entry i = none ∧ ∀ j, j < i → s.entry j ≠ none := by
  unfold State.freeSlot?
  rw [List.find?_eq_some_iff_getElem]
  refine and_congr (by simp) ⟨?_, fun hlower => ?_⟩
  · rintro ⟨k, hk, rfl, hlower⟩ j hj
    simpa [Option.isSome_iff_ne_none] using hlower j.val (by simpa [Fin.lt_def] using hj)
  · exact ⟨i.val, by simp, by simp, fun j hj => by
      simpa [Option.isSome_iff_ne_none] using hlower ⟨j, hj.trans i.isLt⟩ (by simpa [Fin.lt_def] using hj)⟩

theorem State.freeSlot?_eq_none_iff {s : State} : s.freeSlot? = none ↔ ∀ i, s.entry i ≠ none := by
  simp [State.freeSlot?, List.find?_eq_none]

/-- CREATE of a described entry past the check of the table's mode (R28). -/
theorem createAct_of_some {s : State} {p : Port} {body : List Byte} {e : Entry}
    (hm : s.table.mode = .normal) (he : entryOf p body = some e) : createAct p body s =
      if s.table.quota.get p ≤ s.ownedCount p then s.respond p [0x06]
      else match s.freeSlot? with
        | none => s.respond p [0x06]
        | some i => (s.place i e .pastEpoch).respond p
            [0x00, byteOf i.val, byteOf (s.slot i).gen.val] := by
  unfold createAct
  rw [whenNormal_of_normal hm]
  simp only [he]
  rfl

/-- Settles O37: the checks of `createAct` in their order; the slot it takes is the lowest FREE one. -/
theorem createFillsLowestSlot : Obligations.CreateFillsLowestSlot := by
  intro s p h args body ht hl hm
  refine ⟨fun he => ?_, fun e he => ?_⟩
  · rw [exec_create ht hl]
    unfold createAct
    rw [whenNormal_of_normal (by exact hm)]
    simp only [show entryOf p (0x40 :: args) = none from he]
    rfl
  · have hact := createAct_of_some (s := s.serving p h body) hm he
    obtain ⟨plan, pos, orphan, -, -, -, hfields⟩ := entryOf_some he
    refine ⟨by rw [hfields], by rw [hfields], by rw [hfields], fun hfull => ?_, fun i hroom hfree hlow => ?_⟩
    · rw [exec_create ht hl, hact]
      split
      · rfl
      · rename_i hroom
        have hnone : (s.serving p h body).freeSlot? = none :=
          State.freeSlot?_eq_none_iff.mpr (hfull.resolve_left hroom)
        rw [hnone]
        rfl
    · have hsome : (s.serving p h body).freeSlot? = some i :=
        State.freeSlot?_eq_some_iff.mpr ⟨hfree, hlow⟩
      rw [exec_create ht hl, hact, if_neg (by exact Nat.not_le_of_lt hroom), hsome]
      rfl

end Sys2Proof.Machine
end

section
/-! PROOFS. ARM (O38), SUSPEND and RESUME (O39). -/

namespace Sys2Proof.Machine

/-! ### ARM -/

/-- The first whole second after an instant, with the bound written out (R31, R66). -/
theorem referenceAfter_eq (instant : Nat) : referenceAfter instant =
    if instant / 256 * 256 + 256 ≤ 807874559744 then .second ((instant / 256 + 1) * 256)
    else .pastEpoch := by
  have hsecond : (instant / 256 + 1) * 256 = instant / 256 * 256 + 256 := Nat.succ_mul _ _
  unfold referenceAfter Config.lastSecond
  simp only [hsecond]

theorem EntryState.armable_iff {st : EntryState} :
    st.armable = true ↔ st = .held ∨ ∃ c, st = .spent c := by
  cases st <;> simp [EntryState.armable]

section Override

variable {code a b : Byte} {more : List Byte}

theorem overrideOf_nil : overrideOf [code, a, b] = some none := rfl

/-- An override of four characters is an offset (R182). -/
theorem overrideOf_relative (h : more.length = 4) :
    overrideOf (code :: a :: b :: more) =
      some (some (.relative (numberAt (code :: a :: b :: more) 3 4))) := by
  simp [overrideOf, startAt, h]

/-- An override of seven characters is a date, out of range when it is not a real one (R27, R182). -/
theorem overrideOf_absolute (h : more.length = 7) : overrideOf (code :: a :: b :: more) =
    if (instantAt (code :: a :: b :: more) 3).isReal then
      some (some (.absolute (instantAt (code :: a :: b :: more) 3).toCount)) else none := by
  simp only [overrideOf, startAt, List.length_cons, h]
  split <;> simp_all

theorem overrideOf_ne_none (h : more.length = 4 ∨ more.length = 7) :
    overrideOf (code :: a :: b :: more) ≠ some none := by
  rcases h with h | h
  · simp [overrideOf_relative h]
  · rw [overrideOf_absolute h]; split <;> simp

end Override

/-- An override of a MATCH entry is refused (R29). -/
theorem Plan.override_calendar {body : List Byte} {pat : Pattern} (h : overrideOf body ≠ some none) :
    (overrideOf body).bind (Plan.calendar pat).override = none := by
  cases ho : overrideOf body with
  | none => rfl
  | some o =>
    cases o with
    | none => exact absurd ho h
    | some start => rfl

/-- The plan of a ONCE or PERIODIC entry with another start. -/
def Plan.Restarted (plan : Plan) (start start' : Start) (plan' : Plan) : Prop :=
  (∃ pol, plan = .once start pol ∧ plan' = .once start' pol) ∨
    ∃ q pol, plan = .periodic start q pol ∧ plan' = .periodic start' q pol

theorem Plan.Restarted.override {plan plan' : Plan} {start start' : Start}
    (h : plan.Restarted start start' plan') : plan.override (some start') = some plan' := by
  rcases h with ⟨pol, rfl, rfl⟩ | ⟨q, pol, rfl, rfl⟩ <;> rfl

theorem Plan.Restarted.eq_self {plan plan' : Plan} {start : Start}
    (h : plan.Restarted start start plan') : plan' = plan := by
  rcases h with ⟨pol, rfl, rfl⟩ | ⟨q, pol, rfl, rfl⟩ <;> rfl

theorem Plan.Restarted.armed {plan plan' : Plan} {start start' : Start}
    (h : plan.Restarted start start' plan') (instant : Nat) :
    plan'.armed instant = .armed (start'.resolve instant) := by
  rcases h with ⟨pol, rfl, rfl⟩ | ⟨q, pol, rfl, rfl⟩ <;> rfl

section Arm

variable {s : State} {p : Port} {body : List Byte} {n : Handle} {e : Entry}

theorem armEntry_of_not_armable (h : e.state.armable = false) :
    armEntry p body n e s = s.respond p [0x07] := by
  simp [armEntry, h, refusal, Status.code]

theorem armEntry_of_not_valid (h : e.state.armable = true) (hv : s.time.valid = false) :
    armEntry p body n e s = s.respond p [0x0A] := by
  simp [armEntry, h, hv, refusal, Status.code]

/-- ARM with an override that its entry does not take is refused BAD_VALUE (R29). -/
theorem armEntry_of_bad_override (h : e.state.armable = true) (hv : s.time.valid = true)
    (ho : (overrideOf body).bind e.plan.override = none) :
    armEntry p body n e s = s.respond p [0x08] := by
  simp [armEntry, h, hv, ho, refusal, Status.code]

/-- ARM past its checks of the entry and of the override (R29 to R31). -/
theorem armEntry_of_plan {plan : Plan} (h : e.state.armable = true) (hv : s.time.valid = true)
    (ho : (overrideOf body).bind e.plan.override = some plan) : armEntry p body n e s =
      if (plan.armed s.time.instant).dueFits then
        (s.place n.slot { e with state := plan.armed s.time.instant, plan,
                                 remaining := remainingOf e.repeatLimit }
          (referenceAfter s.time.instant)).respond p [0x00, (plan.armed s.time.instant).code]
      else s.respond p [0x08] := by
  simp [armEntry, h, hv, ho, refusal, okBody, Status.code]

end Arm

/-- Settles O38: past the gates of its owner's request, ARM is `armEntry` with its checks in order. -/
theorem armResolvesStart : Obligations.ArmResolvesStart := by
  intro s p h n e more args body ht hm he ho answers u next remaining armable fits
  have hexec (hfits : fits) : exec (.arm p h args) s = .next (armEntry p body n e u) := by
    rw [exec_arm hfits ht]
    exact congrArg Host.Outcome.next
      (asOwner_of_owner (s := u) hm (handleAt_handle 0x41 n more) he ho)
  have hnext : referenceAfter s.time.instant = next := referenceAfter_eq _
  refine ⟨fun hfits ha => ?_, fun hfits ha hv => ?_, fun ha hv => ⟨fun pat hpat => ⟨?_, ?_⟩, ?_, ?_⟩⟩
  · show exec _ s = _
    rw [hexec hfits, armEntry_of_not_armable 
      (Bool.eq_false_iff.mpr (mt EntryState.armable_iff.mp ha))]
  · show exec _ s = _
    rw [hexec hfits, armEntry_of_not_valid (s := u) (EntryState.armable_iff.mpr ha) hv]
  · intro hl
    show exec _ s = _
    rw [hexec (.inr hl), armEntry_of_bad_override (s := u) (EntryState.armable_iff.mpr ha) hv
      (hpat ▸ Plan.override_calendar (overrideOf_ne_none hl))]
  · rintro rfl
    show exec _ s = _
    rw [hexec (.inl rfl), armEntry_of_plan (s := u) (plan := e.plan) (EntryState.armable_iff.mpr ha) hv rfl,
      if_pos (by simp [hpat, Plan.armed, EntryState.dueFits]), ← hnext, hpat]
    rfl
  · intro hl hreal
    show exec _ s = _
    rw [hexec (.inr (.inr hl)), armEntry_of_bad_override (s := u) (EntryState.armable_iff.mpr ha) hv]
    show (overrideOf (0x41 :: byteOf n.slot.val :: byteOf n.gen.val :: more)).bind _ = none
    rw [overrideOf_absolute hl, if_neg (Bool.eq_false_iff.mp hreal)]
    rfl
  · intro start start' plan' hplan hstart due
    have hplan : e.plan.Restarted start start' plan' := hplan
    have hfits : fits := by
      rcases hstart with ⟨hl, -⟩ | ⟨hl, -⟩ | ⟨hl, -⟩
      · exact .inl (congrArg List.length hl)
      · exact .inr (.inl hl)
      · exact .inr (.inr hl)
    have hoverride : (overrideOf body).bind e.plan.override = some plan' := by
      rcases hstart with ⟨rfl, rfl⟩ | ⟨hl, rfl⟩ | ⟨hl, hreal, rfl⟩
      · rw [hplan.eq_self]; rfl
      · exact (congrArg (Option.bind · _) (overrideOf_relative hl)).trans hplan.override
      · rw [show overrideOf body = _ from overrideOf_absolute hl, if_pos hreal]
        exact hplan.override
    have hdue : plan'.armed s.time.instant = .armed due := by
      rw [hplan.armed]
      cases start' <;> rfl
    have hact : exec (.arm p h args) s = _ := (hexec hfits).trans (congrArg Host.Outcome.next
      (armEntry_of_plan (s := u) (EntryState.armable_iff.mpr ha) hv hoverride))
    rw [show u.time.instant = s.time.instant from rfl, hdue, hnext] at hact
    refine ⟨fun hlate => ?_, fun hin => ?_⟩
    · rw [if_neg (by simpa [EntryState.dueFits] using hlate)] at hact
      exact hact
    · rw [if_pos (by simpa [EntryState.dueFits] using hin)] at hact
      exact hact

/-! ### SUSPEND and RESUME -/

section Suspend

variable {s : State} {p : Port} {n : Handle} {e : Entry} {st : EntryState}

theorem suspendEntry_of_some (h : e.suspended = some st) : suspendEntry p n e s =
    (s.place n.slot { e with state := st } .pastEpoch).respond p [0x00] := by
  simp [suspendEntry, h, okBody, Status.code]

theorem suspendEntry_of_none (h : e.suspended = none) : suspendEntry p n e s = s.respond p [0x07] := by
  simp [suspendEntry, h, refusal, Status.code]

theorem resumeEntry_of_some (h : e.state.resumed = some st) (hv : s.time.valid = true) :
    resumeEntry p n e s = (s.place n.slot { e with state := st }
      (referenceAfter s.time.instant)).respond p [0x00] := by
  simp [resumeEntry, h, hv, okBody, Status.code]

theorem resumeEntry_of_not_valid (h : e.state.resumed = some st) (hv : s.time.valid = false) :
    resumeEntry p n e s = s.respond p [0x0A] := by
  simp [resumeEntry, h, hv, refusal, Status.code]

theorem resumeEntry_of_none (h : e.state.resumed = none) : resumeEntry p n e s = s.respond p [0x07] := by
  simp [resumeEntry, h, refusal, Status.code]

end Suspend

/-- Settles O39: past the gates of the owner's request, the two tables `Entry.suspended` and
`EntryState.resumed` by the state and kind of the entry. -/
theorem suspendAndResume : Obligations.SuspendAndResume := by
  intro s p h n e a b next hm he ho
  have hnext : referenceAfter s.time.instant = next := referenceAfter_eq _
  refine ⟨?_, ?_⟩
  · intro ht u suspends
    have hexec : exec (.suspend p h [a, b]) s = .next (suspendEntry p n e u) := by
      rw [exec_suspend ht]
      exact congrArg Host.Outcome.next
        (asOwner_of_owner (s := u) hm (handleAt_handle 0x42 n []) he ho)
    have hto {d : Option Nat} (hd : e.suspended = some (.suspended d)) : suspends d :=
      hexec.trans (congrArg Host.Outcome.next (suspendEntry_of_some hd))
    refine ⟨fun due hst hkind => hto ?_, fun due pat hst hpat => hto ?_, fun hst => hto ?_, fun hst => ?_⟩
    · cases hplan : e.plan with
      | calendar pat => exact absurd hplan (hkind pat)
      | _ => simp [Entry.suspended, hst, hplan]
    · simp [Entry.suspended, hst, hpat]
    · simp [Entry.suspended, hst]
    · refine hexec.trans (congrArg Host.Outcome.next (suspendEntry_of_none ?_))
      rcases hst with hst | ⟨d, hst⟩ | ⟨c, hst⟩ <;> simp [Entry.suspended, hst]
  · intro ht u
    have hexec : exec (.resume p h [a, b]) s = .next (resumeEntry p n e u) := by
      rw [exec_resume ht]
      exact congrArg Host.Outcome.next
        (asOwner_of_owner (s := u) hm (handleAt_handle 0x43 n []) he ho)
    refine ⟨fun d hst hv => ?_, fun due hst hv => ?_, fun hst hv => ?_, fun hst => ?_⟩
    · refine hexec.trans (congrArg Host.Outcome.next ?_)
      cases d with
      | none => exact resumeEntry_of_not_valid (s := u) (by rw [hst]; rfl) hv
      | some due => exact resumeEntry_of_not_valid (s := u) (by rw [hst]; rfl) hv
    · rw [hexec, resumeEntry_of_some (s := u) (by rw [hst]; rfl) hv, ← hnext]
      rfl
    · rw [hexec, resumeEntry_of_some (s := u) (by rw [hst]; rfl) hv, ← hnext]
      rfl
    · refine hexec.trans (congrArg Host.Outcome.next (resumeEntry_of_none ?_))
      cases hs : e.state with
      | suspended d => exact absurd hs (hst d)
      | _ => rfl

end Sys2Proof.Machine
end

section
/-! PROOFS. What writing and freeing an entry does to the two lists and the engine (O43). -/

namespace Sys2Proof.Machine

/-! ### The order of the Due List -/

theorem DueItem.before_iff {a b : DueItem} :
    a.before b = true ↔ a.due < b.due ∨ a.due = b.due ∧ a.slot < b.slot := by
  simp [DueItem.before]

theorem DueItem.before_trans {a b c : DueItem} (h : a.before b = true) (h' : b.before c = true) :
    a.before c = true := by
  simp only [DueItem.before_iff, Fin.lt_def] at *
  omega

/-- Two members of different slots stand in one order or the other. -/
theorem DueItem.before_of_not_before {a b : DueItem} (hs : b.slot ≠ a.slot) (h : ¬a.before b = true) :
    b.before a = true := by
  simp only [DueItem.before_iff, Fin.lt_def, ne_eq, Fin.ext_iff] at *
  omega

section Insert

variable {x : DueItem} {l : List DueItem}

/-- A joining member leaves the others in their places. -/
theorem filter_ne_insertDue (hl : ∀ y ∈ l, y.slot ≠ x.slot) :
    (insertDue x l).filter (·.slot != x.slot) = l := by
  induction l with
  | nil => simp [insertDue]
  | cons y rest ih =>
    have hrest : ∀ z ∈ rest, z.slot ≠ x.slot := fun z hz => hl z (List.mem_cons_of_mem y hz)
    have hy : y.slot ≠ x.slot := hl y List.mem_cons_self
    unfold insertDue
    split
    · simpa [hy] using hrest
    · simp [hy, ih hrest]

/-- A joining member is the only one of its slot, once. -/
theorem filter_eq_insertDue (hl : ∀ y ∈ l, y.slot ≠ x.slot) :
    (insertDue x l).filter (·.slot == x.slot) = [x] := by
  induction l with
  | nil => simp [insertDue]
  | cons y rest ih =>
    have hrest : ∀ z ∈ rest, z.slot ≠ x.slot := fun z hz => hl z (List.mem_cons_of_mem y hz)
    have hy : y.slot ≠ x.slot := hl y List.mem_cons_self
    unfold insertDue
    split
    · simpa [hy] using hrest
    · simp [hy, ih hrest]

/-- A joining member keeps the order of the list (R47). -/
theorem insertDue_pairwise (hl : ∀ y ∈ l, y.slot ≠ x.slot)
    (h : l.Pairwise fun a b => a.before b = true) :
    (insertDue x l).Pairwise fun a b => a.before b = true := by
  induction l with
  | nil => exact List.pairwise_singleton _ _
  | cons y rest ih =>
    obtain ⟨hy, hrest⟩ := List.pairwise_cons.mp h
    unfold insertDue
    split
    · rename_i hxy
      refine List.pairwise_cons.mpr ⟨fun z hz => ?_, h⟩
      rcases List.mem_cons.mp hz with rfl | hz
      · exact hxy
      · exact DueItem.before_trans hxy (hy z hz)
    · rename_i hxy
      refine List.pairwise_cons.mpr ⟨fun z hz => ?_, ih (fun z hz => hl z (List.mem_cons_of_mem y hz)) hrest⟩
      rcases mem_insertDue.mp hz with rfl | hz
      · exact DueItem.before_of_not_before (hl y List.mem_cons_self) hxy
      · exact hy z hz

end Insert

/-! ### The engine as a job leaves or joins (R69) -/

section Engine

variable {q : Search} {i k : SlotNo} {j : Job} {ph : RunPhase}

theorem Search.leave_engine_of_run (h : q.engine = .running i ph) :
    (q.leave i).engine = takeUp (q.leave i).jobs := by
  simp [Search.leave, h]

theorem Search.leave_engine_of_other (h : ∀ ph, q.engine ≠ .running i ph) :
    (q.leave i).engine = q.engine := by
  unfold Search.leave
  cases hq : q.engine with
  | running r ph =>
    have hr : r ≠ i := fun e => h ph (e ▸ hq)
    simp [hr]
  | _ => rfl

theorem Search.join_engine_of_idle (h : q.engine = .idle) :
    (q.join j).engine = takeUp (q.join j).jobs := if_pos h

theorem Search.join_engine_of_busy (h : q.engine ≠ .idle) : (q.join j).engine = q.engine := if_neg h

/-- An engine that has taken up the head of its queue still has as a job joins. -/
theorem Search.join_engine_of_takeUp (h : q.engine = takeUp q.jobs) :
    (q.join j).engine = takeUp (q.join j).jobs := by
  cases hjobs : q.jobs with
  | nil => exact Search.join_engine_of_idle (by rw [h, hjobs]; rfl)
  | cons head rest =>
    rw [Search.join_engine_of_busy (by rw [h, hjobs]; exact nofun), h, Search.join_jobs, hjobs]
    rfl

end Engine

/-! ### The lists after writing an entry -/

section Place

variable {s : State} {i : SlotNo} {e : Entry} {ref : Reference}

theorem State.place_search_of_searching (h : e.state = .searching) :
    (s.place i e ref).search = (s.search.leave i).join ⟨i, (s.slot i).gen, ref⟩ := by
  unfold State.place
  rw [h]
  rfl

theorem State.place_search_of_other (h : e.state ≠ .searching) :
    (s.place i e ref).search = s.search.leave i := by
  rcases s.place_cases i e ref with ⟨due, -, hp⟩ | ⟨hs, -⟩ | ⟨-, -, hp⟩
  · rw [hp]
    rcases State.joinDue_cases ((s.leaveLists i).setSlot i ⟨(s.slot i).gen, some e⟩) i due with
      ⟨-, hj⟩ | ⟨-, hj⟩ <;> rw [hj] <;> rfl
  · exact absurd hs h
  · rw [hp]; rfl

/-- An ARMED entry joins the Due List, and in NORMAL mode a look follows (R47, R49). -/
theorem State.place_of_armed {due : Nat} (h : e.state = .armed due) :
    (s.place i e ref).dueList = insertDue ⟨due, i⟩ (s.dueList.filter (·.slot != i)) ∧
    (s.place i e ref).transit.looks =
      s.transit.looks ++ (if s.table.mode = .normal then [.tableEvent] else []) := by
  have hp : s.place i e ref = ((s.leaveLists i).setSlot i ⟨(s.slot i).gen, some e⟩).joinDue i due := by
    unfold State.place; rw [h]
  rw [hp]
  rcases State.joinDue_cases ((s.leaveLists i).setSlot i ⟨(s.slot i).gen, some e⟩) i due with
    ⟨hm, hj⟩ | ⟨hm, hj⟩ <;> rw [hj]
  · exact ⟨rfl, by rw [if_pos (by exact hm)]; rfl⟩
  · exact ⟨rfl, by rw [if_neg (by exact hm)]; exact (List.append_nil _).symm⟩

theorem State.place_of_not_armed (h : ∀ due, e.state ≠ .armed due) :
    (s.place i e ref).dueList = s.dueList.filter (·.slot != i) ∧
    (s.place i e ref).transit.looks = s.transit.looks := by
  rcases s.place_cases i e ref with ⟨due, hs, -⟩ | ⟨-, hp⟩ | ⟨-, -, hp⟩
  · exact absurd hs (h due)
  · rw [hp]; exact ⟨rfl, rfl⟩
  · rw [hp]; exact ⟨rfl, rfl⟩

/-- What the job's leaving makes of an engine that does not end IDLE, writing an entry makes of it. -/
theorem State.place_engine_of_busy (h : (s.search.leave i).engine ≠ .idle) :
    (s.place i e ref).search.engine = (s.search.leave i).engine := by
  by_cases hs : e.state = .searching
  · rw [State.place_search_of_searching hs, Search.join_engine_of_busy h]
  · rw [State.place_search_of_other hs]

/-- The engine that ran the slot's job takes up the next head. -/
theorem State.place_engine_of_run {ph : RunPhase} (h : s.search.engine = .running i ph) :
    (s.place i e ref).search.engine = takeUp (s.place i e ref).search.jobs := by
  have hleave := Search.leave_engine_of_run h
  by_cases hs : e.state = .searching
  · rw [State.place_search_of_searching hs, Search.join_engine_of_takeUp hleave]
  · rw [State.place_search_of_other hs, hleave]

/-- An IDLE engine takes up a joining job. -/
theorem State.place_engine_of_idle (h : s.search.engine = .idle) :
    (s.place i e ref).search.engine =
      if e.state = .searching then takeUp (s.place i e ref).search.jobs else .idle := by
  have hleave : (s.search.leave i).engine = .idle :=
    (Search.leave_engine_of_other (by simp [h])).trans h
  split
  · rw [State.place_search_of_searching ‹_›, Search.join_engine_of_idle hleave]
  · rw [State.place_search_of_other ‹_›, hleave]

end Place

/-- Settles O43: the slots by the small lemmas of `place` and `freeSlot`, the Due List by those of
`insertDue`, the engine by those of `leave` and `join`. -/
theorem placementMovesLists : Obligations.PlacementMovesLists := by
  intro s i e ref t f others jobs
  have hothers : ∀ y ∈ others, y.slot ≠ i := by simp [others]
  refine ⟨s.place_slot_self i e ref, s.freeSlot_slot_self i,
    fun j hj => ⟨s.place_slot_ne hj e ref, s.freeSlot_slot_ne hj⟩, s.place_frame i e ref, rfl, rfl,
    fun ph => State.place_engine_of_run, State.place_engine_of_idle, fun k ph hk hki => ?_,
    fun hp => ?_, rfl, fun _ _ => rfl, fun ph => Search.leave_engine_of_run,
    Search.leave_engine_of_other, fun due hdue => ?_, State.place_of_not_armed, fun hs => ?_, fun hs => ?_⟩
  · have hleave : (s.search.leave i).engine = .running k ph :=
      (Search.leave_engine_of_other (by simp [hk, hki])).trans hk
    exact (State.place_engine_of_busy (by rw [hleave]; exact nofun)).trans hleave
  · have hleave : (s.search.leave i).engine = .paused :=
      (Search.leave_engine_of_other (by simp [hp])).trans hp
    exact (State.place_engine_of_busy (by rw [hleave]; exact nofun)).trans hleave
  · obtain ⟨hlist, hlooks⟩ := State.place_of_armed (s := s) (i := i) (ref := ref) hdue
    refine ⟨?_, ?_, fun hordered => ?_, hlooks⟩ <;> rw [show t.dueList = _ from hlist]
    · exact filter_ne_insertDue (x := ⟨due, i⟩) hothers
    · exact filter_eq_insertDue (x := ⟨due, i⟩) hothers
    · exact insertDue_pairwise (x := ⟨due, i⟩) hothers (hordered.filter _)
  · rw [show t.search = _ from State.place_search_of_searching hs]; rfl
  · rw [show t.search = _ from State.place_search_of_other hs]; rfl

end Sys2Proof.Machine
end

section
/-! PROOFS. DELETE, PURGE and the release claim (O40). -/

namespace Sys2Proof.Machine

/-! ### One slot across an operation on several -/

/-- A slot keeps what it holds and its members of the two lists. -/
structure State.SameAt (s t : State) (i : SlotNo) : Prop where
  slot : t.slot i = s.slot i
  due : ∀ due, (⟨due, i⟩ : DueItem) ∈ t.dueList ↔ (⟨due, i⟩ : DueItem) ∈ s.dueList
  jobs : ∀ j : Job, j.slot = i → (j ∈ t.search.jobs ↔ j ∈ s.search.jobs)

/-- A slot becomes FREE under the next generation, and is in neither list (R36). -/
structure State.FreedAt (s t : State) (i : SlotNo) : Prop where
  slot : t.slot i = ⟨(s.slot i).gen + 1, none⟩
  due : ∀ x ∈ t.dueList, x.slot ≠ i
  jobs : ∀ j ∈ t.search.jobs, j.slot ≠ i

section At

variable {s t u : State} {i j : SlotNo}

theorem State.SameAt.refl (s : State) (i : SlotNo) : s.SameAt s i :=
  ⟨rfl, fun _ => Iff.rfl, fun _ _ => Iff.rfl⟩

theorem State.SameAt.trans (h : s.SameAt t i) (h' : t.SameAt u i) : s.SameAt u i :=
  ⟨h'.slot.trans h.slot, fun due => (h'.due due).trans (h.due due),
    fun j hj => (h'.jobs j hj).trans (h.jobs j hj)⟩

theorem State.SameAt.entry (h : s.SameAt t i) : t.entry i = s.entry i := congrArg Slot.entry h.slot

theorem State.SameAt.freed (h : s.SameAt t i) (h' : t.FreedAt u i) : s.FreedAt u i :=
  ⟨h.slot ▸ h'.slot, h'.due, h'.jobs⟩

theorem State.FreedAt.same (h : s.FreedAt t i) (h' : t.SameAt u i) : s.FreedAt u i :=
  ⟨h'.slot.trans h.slot, fun x hx hxi => h.due x (by subst hxi; exact (h'.due x.due).mp hx) hxi,
    fun j hj hji => h.jobs j ((h'.jobs j hji).mp hj) hji⟩

theorem State.freedAt_freeSlot (s : State) (i : SlotNo) : s.FreedAt (s.freeSlot i) i where
  slot := s.freeSlot_slot_self i
  due := fun x hx => by simpa using (List.mem_filter.mp hx).2
  jobs := fun j hj => by simpa using (List.mem_filter.mp hj).2

theorem State.sameAt_freeSlot (s : State) (h : i ≠ j) : s.SameAt (s.freeSlot j) i where
  slot := s.freeSlot_slot_ne h
  due := fun due => List.mem_filter.trans (and_iff_left (by simpa using h))
  jobs := fun k hk => List.mem_filter.trans (and_iff_left (by simpa [hk] using h))

end At

/-- An operation that looks at a slot and changes nothing of the others, done over a list of slots, does
to each slot of the list that it touches what it does to it alone, and leaves every other slot. -/
theorem foldl_slots {op : State → SlotNo → State} {touched : State → SlotNo → Prop}
    {R : State → State → SlotNo → Prop} (hne : ∀ (s : State) (i j : SlotNo), i ≠ j → s.SameAt (op s j) i)
    (hhit : ∀ s i, touched s i → R s (op s i) i) (hmiss : ∀ s i, ¬touched s i → op s i = s)
    (htouched : ∀ (s t : State) (i : SlotNo), s.SameAt t i → (touched t i ↔ touched s i))
    (hbefore : ∀ (s t u : State) (i : SlotNo), s.SameAt t i → R t u i → R s u i)
    (hafter : ∀ (s t u : State) (i : SlotNo), R s t i → t.SameAt u i → R s u i)
    {l : List SlotNo} (hl : l.Nodup) (s : State) (i : SlotNo) :
    (i ∈ l → touched s i → R s (l.foldl op s) i) ∧
      (i ∉ l ∨ ¬touched s i → s.SameAt (l.foldl op s) i) := by
  induction l generalizing s with
  | nil => exact ⟨fun h => absurd h List.not_mem_nil, fun _ => .refl s i⟩
  | cons j rest ih =>
    obtain ⟨hj, hrest⟩ := List.nodup_cons.mp hl
    obtain ⟨hin, hout⟩ := ih hrest (op s j)
    rw [List.foldl_cons]
    by_cases hij : i = j
    · subst hij
      have hlater := hout (.inl hj)
      refine ⟨fun _ ht => hafter _ _ _ _ (hhit s i ht) hlater, fun h => ?_⟩
      rw [hmiss s i (h.resolve_left (not_not_intro List.mem_cons_self))] at hlater ⊢
      exact hlater
    · have hfirst := hne s i j hij
      have hmem : i ∈ j :: rest ↔ i ∈ rest := by simp [hij]
      rw [hmem, ← htouched s (op s j) i hfirst]
      exact ⟨fun h ht => hbefore _ _ _ _ hfirst (hin h ht), fun h => hfirst.trans (hout h)⟩

/-! ### The release claim -/

/-- A slot's entry is one that a teardown of a port's session frees (R38). -/
def State.releasable (s : State) (p : Port) (i : SlotNo) : Prop :=
  ∃ e, s.entry i = some e ∧ e.owner = p ∧ e.orphan = .release

theorem State.releaseSlot_of_releasable {s : State} {p : Port} {i : SlotNo} (h : s.releasable p i) :
    s.releaseSlot p i = s.freeSlot i := by
  obtain ⟨e, he, ho, hr⟩ := h
  simp [State.releaseSlot, he, ho, hr]

theorem State.releaseSlot_of_not_releasable {s : State} {p : Port} {i : SlotNo}
    (h : ¬s.releasable p i) : s.releaseSlot p i = s := by
  unfold State.releaseSlot
  cases he : s.entry i with
  | none => rfl
  | some e => exact if_neg fun hr => h ⟨e, he, hr⟩

theorem State.releaseSlot_same {s : State} {p : Port} {i j : SlotNo} (h : i ≠ j) :
    s.SameAt (s.releaseSlot p j) i := by
  by_cases hr : s.releasable p j
  · rw [State.releaseSlot_of_releasable hr]; exact s.sameAt_freeSlot h
  · rw [State.releaseSlot_of_not_releasable hr]; exact .refl s i

theorem State.releaseEntries_spec (s : State) (p : Port) (i : SlotNo) :
    (s.releasable p i → s.FreedAt (s.releaseEntries p) i) ∧
      (¬s.releasable p i → s.SameAt (s.releaseEntries p) i) := by
  obtain ⟨hfree, hsame⟩ := foldl_slots (op := fun s i => s.releaseSlot p i)
    (touched := fun s => s.releasable p) (R := State.FreedAt) (fun _ _ _ => State.releaseSlot_same)
    (fun t j h => State.releaseSlot_of_releasable h ▸ t.freedAt_freeSlot j)
    (fun _ _ => State.releaseSlot_of_not_releasable)
    (fun _ _ _ h => by unfold State.releasable; rw [h.entry])
    (fun _ _ _ _ => State.SameAt.freed) (fun _ _ _ _ => State.FreedAt.same)
    (List.nodup_finRange 64) s i
  exact ⟨hfree (List.mem_finRange i), fun h => hsame (.inr h)⟩

/-- A release claim changes the slots and the two lists, and nothing else. -/
theorem State.releaseEntries_frame (s : State) (p : Port) :
    let t := s.releaseEntries p
    t = { s with table := { s.table with slots := t.table.slots }, dueList := t.dueList,
                 search := t.search } := by
  have h : ∃ slots l q, s.releaseEntries p =
      { s with table := { s.table with slots }, dueList := l, search := q } :=
    State.releaseEntries_keeps (P := fun t => ∃ slots l q, t =
        { s with table := { s.table with slots }, dueList := l, search := q })
      (by rintro _ i ⟨slots, l, q, rfl⟩; exact ⟨_, _, _, rfl⟩) ⟨_, _, _, rfl⟩
  obtain ⟨slots, l, q, h⟩ := h
  rw [h]

section Claim

variable {s : State} {p : Port}

/-- A release claim in NORMAL mode is applied (R38). -/
theorem execReleaseClaim_of_normal (hp : p ∈ s.transit.releases) (hm : s.table.mode = .normal) :
    execReleaseClaim p s = .next (State.releaseEntries
      { s with transit := { s.transit with releases := s.transit.releases.erase p } } p) := by
  have hn : s.tableNormal = true := s.tableNormal_iff.mpr hm
  unfold execReleaseClaim
  rw [if_pos (List.contains_iff_mem.mpr hp)]
  dsimp only
  rw [if_pos (by exact hn)]

/-- A release claim in RESCAN mode is held (R134). -/
theorem execReleaseClaim_of_rescan (hp : p ∈ s.transit.releases) (hm : s.table.mode ≠ .normal) :
    execReleaseClaim p s = .next
      { s with table := { s.table with heldReleases := s.table.heldReleases ++ [p] }
               transit := { s.transit with releases := s.transit.releases.erase p } } := by
  have hn : ¬s.tableNormal = true := mt s.tableNormal_iff.mp hm
  unfold execReleaseClaim
  rw [if_pos (List.contains_iff_mem.mpr hp)]
  dsimp only
  rw [if_neg (by exact hn)]

end Claim

/-- Settles O40: DELETE and PURGE by their gates and acts, the release claim by its effect on each slot. -/
theorem freeingRequests : Obligations.FreeingRequests := by
  refine ⟨?_, ?_⟩
  · intro s p h n e a b hm he
    refine ⟨fun ho ht => ?_, fun hp ht => ?_⟩
    · rw [exec_delete ht, asOwner_of_owner (by exact hm) (handleAt_handle 0x44 n []) (by exact he) ho]
    · rw [exec_purge ht, whenNormal_of_normal (by exact hm),
        withCurrent_of_current (handleAt_handle 0x53 n []) (by exact he)]
      unfold purgeEntry
      rw [if_neg (by exact not_not_intro hp)]
      rfl
  · intro s p hp u
    refine ⟨fun hm => ?_, fun hm => ⟨u.releaseEntries p, ?_, u.releaseEntries_frame p, fun i => ?_⟩⟩
    · exact execReleaseClaim_of_rescan hp hm
    · exact execReleaseClaim_of_normal hp hm
    · obtain ⟨hfree, hsame⟩ := u.releaseEntries_spec p i
      refine ⟨fun e he ho hr => ?_, fun hother => ?_⟩
      · have hfreed := hfree ⟨e, he, ho, hr⟩
        exact ⟨hfreed.slot, hfreed.due, hfreed.jobs⟩
      · have hkept := hsame fun ⟨e, he, ho, hr⟩ => (hother e he).elim (absurd ho) (absurd hr)
        exact ⟨hkept.slot, hkept.due, hkept.jobs⟩

end Sys2Proof.Machine
end

section
/-! PROOFS. The firing claim and the wake request (O46). -/

namespace Sys2Proof.Machine

/-- A claim settled on an entry is final as its next state says, where that is not the claim's own. -/
theorem FiringClaim.settled_isFinal (c : FiringClaim) (e : Entry) : (c.settled e).isFinal =
    if c.nextFor e = c.next then c.isFinal else (c.nextFor e).isFinal := by
  unfold FiringClaim.settled
  split <;> rfl

/-- A claim applied to its entry, with what it hands on written out (R51, R57, R59, R61). -/
theorem applyFiring_settled (c : FiringClaim) (e : Entry) (s : State) :
    let next := c.nextFor e
    let v := (s.place c.handle.slot { e with
        state := next.entryState, remaining := e.remaining.map (· - c.occurrences)
        fireTotal := min 65535 (e.fireTotal + c.occurrences) } next.reference).handNotice .table
      (.firing c.missed c.handle e.tag c.due (min 255 c.occurrences) c.lateness
        (if next = c.next then c.isFinal else next.isFinal)) (.ports e.delivery)
    let w := v.handWake e.wake
    applyFiring (c.settled e) e s = if next = .spent .epoch then w.handNotice .table
      (.ended c.handle e.tag .epoch) (.ports (PortSet.add e.delivery e.owner)) else w := by
  dsimp only
  rw [← FiringClaim.settled_isFinal, c.settled_rest e]
  rfl

/-- The oldest claim is applied to its entry where its handle is current and its due is the entry's. -/
theorem execFiringClaim_of_fits {s : State} {m : FiringMsg} {rest : List FiringMsg} {e : Entry}
    (hs : s.transit.firings = m :: rest) (he : s.current m.claim.handle = some e)
    (hdue : e.state = .armed m.claim.due) : execFiringClaim s = .next (applyFiring (m.claim.settled e) e
      { s with transit := { s.transit with firings := rest } }) := by
  unfold execFiringClaim
  rw [hs]
  dsimp only
  rw [show State.current { s with transit := { s.transit with firings := rest } } m.claim.handle = some e
    from he]
  exact congrArg Host.Outcome.next (if_pos hdue)

/-- Otherwise it is discarded (R51). -/
theorem execFiringClaim_of_not_fits {s : State} {m : FiringMsg} {rest : List FiringMsg}
    (hs : s.transit.firings = m :: rest)
    (hno : ∀ e, s.current m.claim.handle = some e → e.state ≠ .armed m.claim.due) :
    execFiringClaim s = .next { s with transit := { s.transit with firings := rest } } := by
  unfold execFiringClaim
  rw [hs]
  dsimp only
  have hcurrent : State.current { s with transit := { s.transit with firings := rest } } m.claim.handle =
    s.current m.claim.handle := rfl
  rw [hcurrent]
  cases he : s.current m.claim.handle with
  | none => rfl
  | some e => exact congrArg Host.Outcome.next (if_neg (hno e he))

theorem runsOut_eq (remaining : Option Nat) (k : Nat) : runsOut remaining k = match remaining with
    | some r => decide (r ≤ k)
    | none => false := by
  cases remaining <;> rfl

/-- The occurrences of an entry onward from a firing, with the bounds of the epoch written out. -/
theorem Plan.onward_eq (plan : Plan) (due k : Nat) : plan.onward due k = match plan with
    | .once _ _ => .spent .countDone
    | .periodic _ p _ => if 807874559999 < due + k * p then .spent .epoch else .armed (due + k * p)
    | .calendar _ => .search (if due + 256 ≤ 807874559744 then .second (due + 256) else .pastEpoch) := by
  cases plan <;> rfl

/-- Settles O46: the claim by `applyFiring_settled`, whose next state is `FiringClaim.nextFor`. -/
theorem firingClaimApplied : Obligations.FiringClaimApplied := by
  refine ⟨?_, ?_⟩
  · intro s m rest hs c u
    refine ⟨?_, execFiringClaim_of_not_fits hs⟩
    intro e he hdue usedUp onward next isFinal state ref v w
    have hnext : c.nextFor e = next := by
      unfold FiringClaim.nextFor
      exact ite_congr (congrArg (· = true) (runsOut_eq _ _)) (fun _ => rfl) fun _ =>
        ite_congr rfl (fun _ => Plan.onward_eq _ _ _) fun _ => rfl
    refine (execFiringClaim_of_fits hs he hdue).trans ?_
    rw [applyFiring_settled]
    dsimp only
    rw [show m.claim.nextFor e = next from hnext]
    rfl
  · intro s hs u
    have hpos : s.transit.wakes ≠ 0 := hs.ne'
    refine ⟨fun hflag => ?_, fun hflag => ?_⟩
    · show Host.Outcome.next (if _ then _ else _) = _
      rw [if_neg hpos, hflag, Bool.or_true]
    · show Host.Outcome.next (if _ then _ else _) = _
      rw [if_neg hpos, hflag, Bool.or_false]

end Sys2Proof.Machine
end

section
/-! PROOFS. The epoch-end claim (O50). -/

namespace Sys2Proof.Machine

/-! ### What the epoch end does to one slot -/

/-- A slot's entry is live. -/
def State.liveAt (s : State) (i : SlotNo) : Prop := ∃ e, s.entry i = some e ∧ e.state.live = true

/-- A slot's entry becomes SPENT with EPOCH, and is in neither list (R43). -/
structure State.EndedAt (s t : State) (i : SlotNo) : Prop where
  slot : ∀ e, s.entry i = some e →
    t.slot i = ⟨(s.slot i).gen, some { e with state := .spent .epoch }⟩
  due : ∀ x ∈ t.dueList, x.slot ≠ i
  jobs : ∀ j ∈ t.search.jobs, j.slot ≠ i

section At

variable {s t u : State} {i j : SlotNo}

theorem State.SameAt.ended (h : s.SameAt t i) (h' : t.EndedAt u i) : s.EndedAt u i :=
  ⟨fun e he => h.slot ▸ h'.slot e (h.entry ▸ he), h'.due, h'.jobs⟩

theorem State.EndedAt.same (h : s.EndedAt t i) (h' : t.SameAt u i) : s.EndedAt u i :=
  ⟨fun e he => h'.slot.trans (h.slot e he),
    fun x hx hxi => h.due x (by subst hxi; exact (h'.due x.due).mp hx) hxi,
    fun j hj hji => h.jobs j ((h'.jobs j hji).mp hj) hji⟩

theorem State.SameAt.liveAt (h : s.SameAt t i) : t.liveAt i ↔ s.liveAt i := by
  unfold State.liveAt; rw [h.entry]

theorem epochEndSlot_of_not_liveAt (h : ¬s.liveAt i) : epochEndSlot s i = s :=
  epochEndSlot_of_not_live fun e he => Bool.eq_false_iff.mpr fun hl => h ⟨e, he, hl⟩

theorem endedAt_epochEndSlot (h : s.liveAt i) : s.EndedAt (epochEndSlot s i) i := by
  obtain ⟨e, he, hl⟩ := h
  rw [epochEndSlot_of_live he hl]
  refine ⟨fun e' he' => ?_, fun x hx => by simpa using (List.mem_filter.mp hx).2,
    fun j hj => by simpa using (List.mem_filter.mp hj).2⟩
  cases he.symm.trans he'
  exact s.place_slot_self i _ _

theorem sameAt_epochEndSlot (hij : i ≠ j) : s.SameAt (epochEndSlot s j) i := by
  by_cases h : s.liveAt j
  · obtain ⟨e, he, hl⟩ := h
    rw [epochEndSlot_of_live he hl]
    exact ⟨s.place_slot_ne hij _ _,
      fun due => List.mem_filter.trans (and_iff_left (by simpa using hij)),
      fun k hk => List.mem_filter.trans (and_iff_left (by simpa [hk] using hij))⟩
  · rw [epochEndSlot_of_not_liveAt h]; exact .refl s i

/-- The epoch end of a list of slots ends the live entries there, and leaves every other slot. -/
theorem epochEndSlots_spec {l : List SlotNo} (hl : l.Nodup) (s : State) (i : SlotNo) :
    (i ∈ l → s.liveAt i → s.EndedAt (l.foldl epochEndSlot s) i) ∧
      (i ∉ l ∨ ¬s.liveAt i → s.SameAt (l.foldl epochEndSlot s) i) :=
  foldl_slots (fun _ _ _ => sameAt_epochEndSlot) (fun _ _ => endedAt_epochEndSlot)
    (fun _ _ => epochEndSlot_of_not_liveAt) (fun _ _ _ => State.SameAt.liveAt)
    (fun _ _ _ _ => State.SameAt.ended) (fun _ _ _ _ => State.EndedAt.same) hl s i

end At

/-! ### What it hands on -/

/-- The ENDED notice of a slot's live entry, without its stamps (R43, R80). -/
def State.endedNotice (s : State) (i : SlotNo) : Option (NoticeSource × Content × Address) :=
  match s.entry i with
  | some e => if e.state.live then some (.table, .ended ⟨i, (s.slot i).gen⟩ e.tag .epoch,
      .ports (PortSet.add e.delivery e.owner)) else none
  | none => none

/-- The notices on their way, without their stamps. -/
def State.noticesSent (s : State) : List (NoticeSource × Content × Address) :=
  s.transit.notices.map fun x => (x.src, x.content, x.address)

theorem epochEndSlot_noticesSent (s : State) (i : SlotNo) :
    (epochEndSlot s i).noticesSent = s.noticesSent ++ (s.endedNotice i).toList := by
  by_cases h : s.liveAt i
  · obtain ⟨e, he, hl⟩ := h
    rw [epochEndSlot_of_live he hl]
    have hnotice : s.endedNotice i = some (.table, .ended ⟨i, (s.slot i).gen⟩ e.tag .epoch,
        .ports (PortSet.add e.delivery e.owner)) := by simp [State.endedNotice, he, hl]
    rw [hnotice]
    exact List.map_append
  · rw [epochEndSlot_of_not_liveAt h]
    have hnotice : s.endedNotice i = none := by
      unfold State.endedNotice
      split
      · exact if_neg fun hl => h ⟨_, ‹_›, hl⟩
      · rfl
    rw [hnotice]
    exact (List.append_nil _).symm

theorem State.SameAt.endedNotice {s t : State} {i : SlotNo} (h : s.SameAt t i) :
    t.endedNotice i = s.endedNotice i := by
  unfold State.endedNotice; rw [h.entry, h.slot]

/-- One ENDED notice for each live entry, in the order of the slots (R43). -/
theorem epochEndSlots_noticesSent {l : List SlotNo} (hl : l.Nodup) (s : State) :
    (l.foldl epochEndSlot s).noticesSent = s.noticesSent ++ l.filterMap s.endedNotice := by
  induction l generalizing s with
  | nil => exact (List.append_nil _).symm
  | cons j rest ih =>
    obtain ⟨hj, hrest⟩ := List.nodup_cons.mp hl
    have hlater : rest.filterMap (epochEndSlot s j).endedNotice = rest.filterMap s.endedNotice :=
      List.filterMap_congr fun i hi =>
        (sameAt_epochEndSlot fun hij : i = j => hj (hij ▸ hi)).endedNotice
    rw [List.foldl_cons, ih hrest, epochEndSlot_noticesSent, hlater, List.append_assoc]
    cases h : s.endedNotice j <;> simp [h]

/-! ### What it leaves alone -/

/-- The epoch end changes the slots, the two lists, the notices and their stamps, and nothing else. -/
theorem epochEndSlots_frame (l : List SlotNo) (s : State) :
    let t := l.foldl epochEndSlot s
    t = { s with
      table := { s.table with slots := t.table.slots }, dueList := t.dueList, search := t.search
      transit := { s.transit with notices := t.transit.notices, stamp := t.transit.stamp } } := by
  have h : ∃ slots due q notices stamp, l.foldl epochEndSlot s = { s with
      table := { s.table with slots }, dueList := due, search := q
      transit := { s.transit with notices, stamp } } :=
    epochEnd_keeps (P := fun t => ∃ slots due q notices stamp, t = { s with
        table := { s.table with slots }, dueList := due, search := q
        transit := { s.transit with notices, stamp } })
      (by rintro _ i e - - ⟨slots, due, q, notices, stamp, rfl⟩; exact ⟨_, _, _, _, _, rfl⟩)
      ⟨_, _, _, _, _, rfl⟩ l
  obtain ⟨slots, due, q, notices, stamp, h⟩ := h
  rw [h]

/-! ### The engine over it -/

/-- The engine runs the head of its queue, is IDLE over an empty one, or is PAUSED (R69). -/
def Search.RunsHead (q : Search) : Prop :=
  match q.engine with
  | .paused => True
  | .idle => q.jobs = []
  | .running i _ => q.jobs.head?.map (·.slot) = some i

theorem Search.runsHead_of_engineLaw {s : State} (h : EngineLaw s) : s.search.RunsHead := by
  unfold EngineLaw at h
  unfold Search.RunsHead
  split <;> simp_all

theorem Search.runsHead_takeUp (jobs : List Job) : (⟨jobs, takeUp jobs⟩ : Search).RunsHead := by
  cases jobs <;> rfl

theorem Search.RunsHead.leave {q : Search} (h : q.RunsHead) (i : SlotNo) : (q.leave i).RunsHead := by
  obtain ⟨jobs, engine⟩ := q
  cases engine with
  | paused => trivial
  | idle =>
    have hjobs : jobs = [] := h
    subst hjobs
    rfl
  | running r ph =>
    by_cases hr : r = i
    · subst hr
      have hleave := Search.leave_engine_of_run (q := ⟨jobs, .running r ph⟩) rfl
      rw [show (Search.leave ⟨jobs, .running r ph⟩ r) = ⟨_, takeUp _⟩ from congrArg (Search.mk _) hleave]
      exact Search.runsHead_takeUp _
    · have hleave : (Search.leave ⟨jobs, .running r ph⟩ i).engine = .running r ph :=
        Search.leave_engine_of_other (by simp [hr])
      cases jobs with
      | nil => cases h
      | cons head rest =>
        have hhead : head.slot = r := Option.some.inj h
        unfold Search.RunsHead
        rw [hleave]
        simp [hhead, hr]

theorem Search.leave_paused_iff {q : Search} {i : SlotNo} :
    (q.leave i).engine = .paused ↔ q.engine = .paused := by
  by_cases h : ∃ ph, q.engine = .running i ph
  · obtain ⟨ph, h⟩ := h
    rw [Search.leave_engine_of_run h, h]
    cases (q.leave i).jobs <;> simp
  · rw [Search.leave_engine_of_other (by simpa using h)]

/-- Over the epoch end the engine keeps running the head of its queue, and stays PAUSED where it was. -/
theorem epochEndSlots_engine (l : List SlotNo) {s : State} (h : s.search.RunsHead) :
    let t := l.foldl epochEndSlot s
    t.search.RunsHead ∧ (t.search.engine = .paused ↔ s.search.engine = .paused) :=
  epochEnd_keeps (P := fun t => t.search.RunsHead ∧
      (t.search.engine = .paused ↔ s.search.engine = .paused))
    (fun t i e _ _ ⟨hruns, hpaused⟩ => by
      have hsearch : (t.place i { e with state := .spent .epoch } .pastEpoch).search = t.search.leave i :=
        State.place_search_of_other nofun
      show ((t.place i _ _).search.RunsHead ∧ ((t.place i _ _).search.engine = _ ↔ _))
      rw [hsearch]
      exact ⟨hruns.leave i, Search.leave_paused_iff.trans hpaused⟩) ⟨h, Iff.rfl⟩ l

theorem Search.RunsHead.engine_of_empty {q : Search} (h : q.RunsHead) (hq : q.jobs = []) :
    q.engine = .paused ∨ q.engine = .idle := by
  obtain ⟨jobs, engine⟩ := q
  cases hq
  cases engine with
  | running i ph => cases h
  | idle => exact .inr rfl
  | paused => exact .inl rfl

/-! ### The claim -/

section Claim

variable {s : State}

theorem execEpochEndClaim_of_ready {m : TimeMsg} (hm : s.timeClaimReady = some m)
    (hc : m.claim = .epochEnd) : execEpochEndClaim s =
      .next ((List.finRange 64).foldl epochEndSlot (s.timeClaimTaken m)) := by
  unfold execEpochEndClaim
  rw [hm]
  dsimp only
  rw [hc]

/-- With no epoch-end claim that may be taken the command does nothing (R52). -/
theorem execEpochEndClaim_of_not_ready (h : ∀ m, s.timeClaimReady = some m → m.claim ≠ .epochEnd) :
    execEpochEndClaim s = .next s := by
  unfold execEpochEndClaim
  cases hm : s.timeClaimReady with
  | none => rfl
  | some m =>
    dsimp only
    split
    · rfl
    · exact absurd ‹_› (h m hm)

theorem liveAt_of_due (h : DueListLaw s) {x : DueItem} (hx : x ∈ s.dueList) : s.liveAt x.slot := by
  obtain ⟨e, he, hs⟩ := (h.exact x.slot x.due).mp hx
  exact ⟨e, he, by rw [hs]; rfl⟩

theorem liveAt_of_job (h : SearchQueueLaw s) {j : Job} (hj : j ∈ s.search.jobs) : s.liveAt j.slot := by
  obtain ⟨e, he, hs⟩ := (h.exact j.slot).mp ⟨j, hj, rfl⟩
  exact ⟨e, he, by rw [hs]; rfl⟩

/-- With every live entry ended and every other slot as it was, both lists are empty (R63, R77). -/
theorem lists_empty_of_ended {t : State} (hdue : DueListLaw s) (hjobs : SearchQueueLaw s)
    (hended : ∀ i, s.liveAt i → s.EndedAt t i) (hsame : ∀ i, ¬s.liveAt i → s.SameAt t i) :
    t.dueList = [] ∧ t.search.jobs = [] := by
  refine ⟨List.eq_nil_iff_forall_not_mem.mpr fun x hx => ?_,
    List.eq_nil_iff_forall_not_mem.mpr fun j hj => ?_⟩
  · by_cases hl : s.liveAt x.slot
    · exact (hended _ hl).due x hx rfl
    · exact hl (liveAt_of_due hdue (((hsame _ hl).due x.due).mp hx))
  · by_cases hl : s.liveAt j.slot
    · exact (hended _ hl).jobs j hj rfl
    · exact hl (liveAt_of_job hjobs (((hsame _ hl).jobs j rfl).mp hj))

end Claim

/-- The epoch end of all slots, from a state with the laws of the two lists. -/
theorem epochEnd_spec {l : List SlotNo} (hl : l.Nodup) (hall : ∀ i, i ∈ l) {s : State}
    (hdue : DueListLaw s) (hjobs : SearchQueueLaw s) :
    let t := l.foldl epochEndSlot s
    t.dueList = [] ∧ t.search.jobs = [] ∧
    (s.search.RunsHead → t.search.engine = if s.search.engine = .paused then .paused else .idle) ∧
    (∀ i, s.liveAt i → s.EndedAt t i) ∧ (∀ i, ¬s.liveAt i → s.SameAt t i) := by
  intro t
  have hended (i : SlotNo) : s.liveAt i → s.EndedAt t i := (epochEndSlots_spec hl s i).1 (hall i)
  have hsame (i : SlotNo) (h : ¬s.liveAt i) : s.SameAt t i := (epochEndSlots_spec hl s i).2 (.inr h)
  obtain ⟨hnodue, hnojobs⟩ := lists_empty_of_ended hdue hjobs hended hsame
  refine ⟨hnodue, hnojobs, fun hruns => ?_, hended, hsame⟩
  obtain ⟨hhead, hpaused⟩ := epochEndSlots_engine l hruns
  rcases hhead.engine_of_empty hnojobs with h | h
  · rw [if_pos (hpaused.mp h)]; exact h
  · rw [if_neg fun hp => by rw [h] at hpaused; cases hpaused.mpr hp]; exact h

/-- Settles O50: each slot by `epochEndSlots_spec`, the notices by `epochEndSlots_noticesSent`, and the
two lists are empty since they hold members of live entries alone. -/
theorem epochEndEndsLiveEntries : Obligations.EpochEndEndsLiveEntries := by
  refine ⟨fun s => execEpochEndClaim_of_not_ready, fun s m hm hc hdue hjobs => ?_⟩
  have hspec := epochEnd_spec (List.nodup_finRange 64) List.mem_finRange (s := s.timeClaimTaken m)
    ⟨hdue.ordered, hdue.exact⟩ ⟨hjobs.once, hjobs.exact, hjobs.gens⟩
  have hframe := epochEndSlots_frame (List.finRange 64) (s.timeClaimTaken m)
  have hnotices := epochEndSlots_noticesSent (List.nodup_finRange 64) (s.timeClaimTaken m)
  refine ⟨_, execEpochEndClaim_of_ready hm hc, ?_⟩
  generalize (List.finRange 64).foldl epochEndSlot (s.timeClaimTaken m) = t at hspec hframe hnotices ⊢
  obtain ⟨hnodue, hnojobs, hengine, hended, hsame⟩ := hspec
  have htransit : t.transit = { s.transit with
      notices := t.transit.notices, stamp := t.transit.stamp
      timeClaims := s.transit.timeClaims.drop 1, tableAfter := m.stamp } :=
    congrArg State.transit hframe
  refine ⟨fun h => hengine (Search.runsHead_of_engineLaw h), ?_, fun i => ⟨fun e he hl => ?_, fun hrest => ?_⟩,
    htransit, hnotices⟩
  · have hsearch : t.search = ⟨[], t.search.engine⟩ := by rw [← hnojobs]
    have hparts : t = { s with
        table := { s.table with slots := t.table.slots }, dueList := t.dueList, search := t.search
        transit := t.transit } := hframe.trans (by rw [htransit]; rfl)
    rw [hnodue, hsearch] at hparts
    exact hparts
  · exact (hended i ⟨e, he, hl⟩).slot e he
  · exact (hsame i fun ⟨e, he, hl⟩ => by simp [hrest e he] at hl).slot

end Sys2Proof.Machine
end

section
/-! PROOFS. QUERY and LIST (O41). -/

namespace Sys2Proof.Machine

/-! ### QUERY -/

/-- Instant kind and instant of QUERY STATE, by the state of the entry (R40, R66). -/
theorem queryInstant_eq (st : EntryState) (ref : Option Reference) : queryInstant st ref =
    match st with
    | .armed due | .suspended (some due) => 0x01 :: instantBytes due
    | .searching => match ref with
      | some (.second r) => 0x02 :: instantBytes r
      | _ => [0, 0, 0, 0, 0, 0, 0, 0]
    | _ => [0, 0, 0, 0, 0, 0, 0, 0] := by
  cases st with
  | searching =>
    cases ref with
    | none => rfl
    | some r => cases r <;> rfl
  | suspended d => cases d <;> rfl
  | _ => rfl

section Query

variable {s : State} {p : Port} {body : List Byte} {n : Handle} {e : Entry}

theorem queryEntry_state (h : byteAt body 3 = 0) : queryEntry p body n e s =
    s.respond p (okBody (stateBytes n e (s.reference n.slot))) := by
  simp [queryEntry, h]

theorem queryEntry_parameters (h : byteAt body 3 = 1) : queryEntry p body n e s =
    ({ s with freeIndex := s.freeIndex + 1 }).respond p
      (okBody (parameterBytes e (Config.freeOptionBits s.freeIndex))) := by
  simp [queryEntry, h]

/-- An undefined part is refused BAD_VALUE (R41). -/
theorem queryEntry_undefined (h : 1 < (byteAt body 3).toNat) :
    queryEntry p body n e s = s.respond p [0x08] := by
  unfold queryEntry
  split
  · omega
  · omega
  · rfl

end Query

/-! ### LIST -/

/-- A sum of distinct powers of two has the bits that name them. -/
theorem testBit_sum_two_pow (b : Nat → Bool) (n : Nat) :
    ((List.range n).map fun k => if b k then 2 ^ k else 0).sum < 2 ^ n ∧
    ∀ j, j < n → ((List.range n).map fun k => if b k then 2 ^ k else 0).sum.testBit j = b j := by
  induction n with
  | zero => exact ⟨by simp, fun j hj => absurd hj (Nat.not_lt_zero j)⟩
  | succ n ih =>
    obtain ⟨hlt, hbits⟩ := ih
    rw [List.range_succ, List.map_append, List.sum_append]
    generalize ((List.range n).map fun k => if b k then 2 ^ k else 0).sum = x at hlt hbits ⊢
    have htop : x.testBit n = false := Nat.testBit_lt_two_pow hlt
    cases hb : b n
    · refine ⟨by simp [hb, Nat.pow_succ]; omega, fun j hj => ?_⟩
      rcases Nat.lt_succ_iff_lt_or_eq.mp hj with hj | rfl
      · simpa [hb] using hbits j hj
      · simpa [hb] using htop
    · refine ⟨by simp [hb, Nat.pow_succ]; omega, fun j hj => ?_⟩
      rcases Nat.lt_succ_iff_lt_or_eq.mp hj with hj | rfl
      · simpa [hb, Nat.add_comm x, Nat.testBit_two_pow_add_gt hj] using hbits j hj
      · simp [hb, Nat.add_comm x, Nat.testBit_two_pow_add_eq, htop]

theorem State.slots_getElem? (s : State) (i : SlotNo) :
    s.table.slots.toList[i.val]? = some (s.slot i) := by
  simp [State.slot, Vector.get_eq_getElem]

/-- The character i of the ownership map holds the ownership of slots 8i to 8i + 7 (R183). -/
theorem ownershipByte_getLsbD (s : State) (q : Port) (i : SlotNo) :
    (ownershipByte s q (i.val / 8)).getLsbD (i.val % 8) = (s.slot i).ownedBy q := by
  have hbit : i.val % 8 < 8 := Nat.mod_lt _ (by decide)
  have hbits := (testBit_sum_two_pow (fun k =>
    ((s.table.slots.toList[8 * (i.val / 8) + k]?).map (·.ownedBy q)).getD false) 8).2 (i.val % 8) hbit
  unfold ownershipByte byteOf
  rw [BitVec.getLsbD_ofNat, hbits, Nat.div_add_mod, s.slots_getElem?]
  simp [hbit]

/-- A generations character holds two slots' generations, the first in its upper half (R183). -/
theorem generationsByte_toNat (s : State) {i j : SlotNo} (hj : j.val = i.val + 1) :
    (generationsByte s i.val).toNat = 16 * (s.slot i).gen.val + (s.slot j).gen.val := by
  unfold generationsByte
  dsimp only
  rw [← hj, s.slots_getElem?, s.slots_getElem?]
  have h1 := (s.slot i).gen.isLt
  have h2 := (s.slot j).gen.isLt
  simp only [Option.map_some, Option.getD_some, byteOf, BitVec.toNat_ofNat]
  omega

theorem byteAt_map_range {f : Nat → Byte} {n k : Nat} (h : k < n) :
    byteAt ((List.range n).map f) k = f k := by
  simp [byteAt, List.getD, h]

theorem portOf_of_large {a : Byte} (h : 3 < a.toNat) : portOf a = none := by
  unfold portOf Port.ofNat?
  split
  case h_5 => rfl
  all_goals omega

section List

variable {s : State} {p : Port} {body : List Byte}

theorem listAct_of_bad (hm : s.table.mode = .normal)
    (h : 3 < (byteAt body 1).toNat ∨ 3 < (byteAt body 2).toNat) :
    listAct p body s = s.respond p [0x08] := by
  unfold listAct
  rw [whenNormal_of_normal hm]
  dsimp only
  split
  · rfl
  · rename_i q hq
    have hgroup := h.resolve_left fun ha => by simp [portOf_of_large ha] at hq
    exact if_neg (Nat.not_le_of_lt hgroup)

theorem listAct_of_port {q : Port} (hm : s.table.mode = .normal) (hq : byteAt body 1 = portByte q)
    (hg : (byteAt body 2).toNat ≤ 3) : listAct p body s =
      s.respond p (okBody (listFields s q (byteAt body 2).toNat)) := by
  unfold listAct
  rw [whenNormal_of_normal hm]
  simp only [hq, portOf_portByte]
  exact if_pos hg

end List

/-- Settles O41: the parts of QUERY by `queryEntry`, LIST's characters bit by bit. -/
theorem queryAndList : Obligations.QueryAndList := by
  refine ⟨?_, ?_⟩
  · intro s p h n e part a b body ht hm he shown cause
    have hexec : exec (.query p h [a, b, part]) s =
        .next (queryEntry p body n e (s.serving p h body)) := by
      rw [exec_query ht, whenNormal_of_normal (by exact hm)]
      exact congrArg Host.Outcome.next (withCurrent_of_current (handleAt_handle 0x45 n [part]) he)
    refine ⟨fun hpart => ?_, fun hpart => ⟨Config.freeOptionBits s.freeIndex, ?_⟩, fun hpart => ?_⟩
    · rw [hexec, queryEntry_state (body := body) hpart]
      unfold stateBytes
      rw [queryInstant_eq]
      rfl
    · rw [hexec, queryEntry_parameters (body := body) hpart]
      rfl
    · rw [hexec, queryEntry_undefined (body := body) hpart]
      rfl
  · intro s p h a g body ht hm
    have hexec := exec_list ht
    refine ⟨fun hbad => ?_, fun q hq hg => ?_⟩
    · rw [hexec, listAct_of_bad (by exact hm) (by exact hbad)]
      rfl
    · refine ⟨(List.range 8).map (ownershipByte s q),
        (List.range 8).map fun k => generationsByte s (16 * g.toNat + 2 * k), by simp, by simp,
        fun i => ?_, fun k hk i j hi hj => ?_, ?_⟩
      · rw [byteAt_map_range (by omega), ownershipByte_getLsbD]
      · rw [byteAt_map_range hk, ← hi, generationsByte_toNat s hj]
      · rw [hexec, listAct_of_port (q := q) (by exact hm) (by exact hq) (by exact hg)]
        rfl

end Sys2Proof.Machine
end

section
/-! PROOFS. The values that CREATE refuses (O35). -/

namespace Sys2Proof.Machine

/-! ### The fields of a CREATE body, where they are out of range -/

/-- A pattern character out of range (R181). -/
theorem patternField_eq_none_iff {b : Byte} {lo hi : Nat} :
    patternField b lo hi = none ↔ b ≠ 0xFF ∧ (b.toNat < lo ∨ hi < b.toNat) := by
  unfold patternField
  split
  · simp [*]
  · rename_i hany
    split
    · rename_i hin
      simp only [reduceCtorEq, false_iff, not_and, not_or, Nat.not_lt]
      exact fun _ => hin
    · rename_i hout
      simp only [true_iff]
      exact ⟨hany, by omega⟩

/-- A field that is read before others, which fail on a condition of their own. -/
theorem bind_eq_none_iff_or {α β : Type} {x : Option α} {f : α → Option β} {q : Prop}
    (h : ∀ a, f a = none ↔ q) : x.bind f = none ↔ x = none ∨ q := by
  cases x <;> simp [h]

theorem patternAt_eq_none_iff {body : List Byte} {pos : Nat} : patternAt body pos = none ↔
    patternField (byteAt body pos) 1 12 = none ∨ patternField (byteAt body (pos + 1)) 1 31 = none ∨
    patternField (byteAt body (pos + 2)) 1 7 = none ∨ patternField (byteAt body (pos + 3)) 0 23 = none ∨
    patternField (byteAt body (pos + 4)) 0 59 = none ∨ patternField (byteAt body (pos + 5)) 0 59 = none := by
  refine bind_eq_none_iff_or fun _ => bind_eq_none_iff_or fun _ => bind_eq_none_iff_or fun _ =>
    bind_eq_none_iff_or fun _ => bind_eq_none_iff_or fun _ => ?_
  cases patternField (byteAt body (pos + 5)) 0 59 <;> simp

theorem startAt_eq_none_iff {body : List Byte} {pos : Nat} {relative : Bool} :
    startAt body pos relative = none ↔ relative = false ∧ (instantAt body pos).isReal = false := by
  unfold startAt
  cases relative <;> cases h : (instantAt body pos).isReal <;> simp [h]

/-- Two neighbouring bits of a character as a number. -/
theorem twoBits (b : Byte) (i : Nat) :
    b.toNat / 2 ^ i % 4 = (b.getLsbD i).toNat + 2 * (b.getLsbD (i + 1)).toNat := by
  have hi : b.getLsbD i = decide (b.toNat / 2 ^ i % 2 = 1) := Nat.testBit_eq_decide_div_mod_eq
  have hi' : b.getLsbD (i + 1) = decide (b.toNat / 2 ^ i / 2 % 2 = 1) := by
    rw [Nat.div_div_eq_div_mul, ← Nat.pow_succ]
    exact Nat.testBit_eq_decide_div_mod_eq
  rw [hi, hi']
  generalize b.toNat / 2 ^ i = n
  rcases Nat.mod_two_eq_zero_or_one n with h | h <;>
    rcases Nat.mod_two_eq_zero_or_one (n / 2) with h' | h' <;> simp [h, h'] <;> omega

/-- The step policy by its two bits of the options character (R181). -/
theorem stepPolicyOf_eq (b : Byte) : stepPolicyOf b =
    if b.getLsbD 2 then none else some (if b.getLsbD 1 then .relative else .absolute) := by
  unfold stepPolicyOf
  rw [show b.toNat / 2 % 4 = _ from twoBits b 1]
  cases b.getLsbD 1 <;> cases b.getLsbD 2 <;> rfl

/-- The orphan policy by its two bits of the options character (R181). -/
theorem orphanPolicyOf_eq (b : Byte) : orphanPolicyOf b =
    if b.getLsbD 4 then none else some (if b.getLsbD 3 then .release else .keep) := by
  unfold orphanPolicyOf
  rw [show b.toNat / 8 % 4 = _ from twoBits b 3]
  cases b.getLsbD 3 <;> cases b.getLsbD 4 <;> rfl

theorem stepPolicyOf_eq_none_iff {b : Byte} : stepPolicyOf b = none ↔ b.getLsbD 2 = true := by
  rw [stepPolicyOf_eq]; cases b.getLsbD 2 <;> simp

theorem orphanPolicyOf_eq_none_iff {b : Byte} : orphanPolicyOf b = none ↔ b.getLsbD 4 = true := by
  rw [orphanPolicyOf_eq]; cases b.getLsbD 4 <;> simp

/-- A port set is empty when the lower four bits of its character are 0 (R181). -/
theorem portSetOf_eq_empty_iff {b : Byte} : portSetOf b = PortSet.empty ↔ b.toNat % 16 = 0 := by
  have h0 : b.getLsbD 0 = decide (b.toNat / 1 % 2 = 1) := Nat.testBit_eq_decide_div_mod_eq
  have h1 : b.getLsbD 1 = decide (b.toNat / 2 % 2 = 1) := Nat.testBit_eq_decide_div_mod_eq
  have h2 : b.getLsbD 2 = decide (b.toNat / 4 % 2 = 1) := Nat.testBit_eq_decide_div_mod_eq
  have h3 : b.getLsbD 3 = decide (b.toNat / 8 % 2 = 1) := Nat.testBit_eq_decide_div_mod_eq
  simp only [portSetOf, PortSet.empty, Quad.const, h0, h1, h2, h3, Quad.mk.injEq, decide_eq_false_iff_not]
  omega

/-! ### The plan of a CREATE body, by its kind -/

section Plan

variable {body : List Byte}

/-- The position behind the plan of a CREATE body, from its kind and options characters (R182). -/
def planEnd (body : List Byte) : Nat :=
  match (byteAt body 1).toNat with
  | 0 => 3 + startWidth ((byteAt body 2).getLsbD 0)
  | 1 => 3 + startWidth ((byteAt body 2).getLsbD 0) + 4
  | _ => 9

theorem planOf_once (h : byteAt body 1 = 0) : planOf body =
    (startAt body 3 ((byteAt body 2).getLsbD 0)).bind fun start =>
      (stepPolicyOf (byteAt body 2)).map fun pol => (.once start pol, planEnd body) := by
  simp only [planOf, planEnd, h]
  cases startAt body 3 ((byteAt body 2).getLsbD 0) <;> cases stepPolicyOf (byteAt body 2) <;> rfl

theorem planOf_periodic (h : byteAt body 1 = 1) : planOf body =
    (startAt body 3 ((byteAt body 2).getLsbD 0)).bind fun start =>
      (stepPolicyOf (byteAt body 2)).bind fun pol =>
        let period := numberAt body (3 + startWidth ((byteAt body 2).getLsbD 0)) 4
        if period = 0 then none else some (.periodic start period pol, planEnd body) := by
  simp only [planOf, planEnd, h]
  rfl

theorem planOf_calendar (h : byteAt body 1 = 2) : planOf body =
    (patternAt body 3).map fun pattern => (.calendar pattern, planEnd body) := by
  simp only [planOf, planEnd, h]
  cases patternAt body 3 <;> rfl

theorem planOf_undefined (h : 2 < (byteAt body 1).toNat) : planOf body = none := by
  unfold planOf
  dsimp only
  split
  case h_4 => rfl
  all_goals omega

/-- The kinds that R181 defines. -/
theorem kind_cases (h : ¬2 < (byteAt body 1).toNat) :
    byteAt body 1 = 0 ∨ byteAt body 1 = 1 ∨ byteAt body 1 = 2 := by
  have hk : (byteAt body 1).toNat = 0 ∨ (byteAt body 1).toNat = 1 ∨ (byteAt body 1).toNat = 2 := by omega
  exact hk.imp BitVec.eq_of_toNat_eq (.imp BitVec.eq_of_toNat_eq BitVec.eq_of_toNat_eq)

theorem planOf_pos {plan : Plan} {pos : Nat} (h : planOf body = some (plan, pos)) :
    pos = planEnd body := by
  by_cases hk : 2 < (byteAt body 1).toNat
  · rw [planOf_undefined hk] at h; cases h
  · rcases kind_cases hk with hk | hk | hk
    · rw [planOf_once hk] at h
      obtain ⟨start, -, h⟩ := Option.bind_eq_some_iff.mp h
      obtain ⟨pol, -, h⟩ := Option.map_eq_some_iff.mp h
      exact (Prod.mk_inj.mp h).2.symm
    · rw [planOf_periodic hk] at h
      obtain ⟨start, -, h⟩ := Option.bind_eq_some_iff.mp h
      obtain ⟨pol, -, h⟩ := Option.bind_eq_some_iff.mp h
      dsimp only at h
      split at h
      · cases h
      · exact (Prod.mk_inj.mp (Option.some.inj h)).2.symm
    · rw [planOf_calendar hk] at h
      obtain ⟨pattern, -, h⟩ := Option.map_eq_some_iff.mp h
      exact (Prod.mk_inj.mp h).2.symm

/-- A CREATE body is refused for its plan, for its orphan policy or for its delivery set (R27). -/
theorem entryOf_eq_none_iff {p : Port} : entryOf p body = none ↔ planOf body = none ∨
    (byteAt body 2).getLsbD 4 = true ∨ (byteAt body (planEnd body + 4)).toNat % 16 = 0 := by
  rw [← orphanPolicyOf_eq_none_iff, ← portSetOf_eq_empty_iff]
  unfold entryOf
  cases hplan : planOf body with
  | none => simp
  | some plan =>
    cases orphanPolicyOf (byteAt body 2) with
    | none => simp
    | some orphan =>
      rw [← planOf_pos (plan := plan.1) (pos := plan.2) hplan]
      simp

end Plan

/-- The plan of a body of each kind, where it is refused. -/
theorem planOf_once_eq_none_iff {body : List Byte} (h : byteAt body 1 = 0) : planOf body = none ↔
    ((byteAt body 2).getLsbD 0 = false ∧ (instantAt body 3).isReal = false) ∨
      (byteAt body 2).getLsbD 2 = true := by
  rw [planOf_once h, ← startAt_eq_none_iff, ← stepPolicyOf_eq_none_iff]
  cases startAt body 3 ((byteAt body 2).getLsbD 0) <;> cases stepPolicyOf (byteAt body 2) <;> simp

theorem planOf_periodic_eq_none_iff {body : List Byte} (h : byteAt body 1 = 1) : planOf body = none ↔
    ((byteAt body 2).getLsbD 0 = false ∧ (instantAt body 3).isReal = false) ∨
      (byteAt body 2).getLsbD 2 = true ∨
      numberAt body (3 + startWidth ((byteAt body 2).getLsbD 0)) 4 = 0 := by
  rw [planOf_periodic h, ← startAt_eq_none_iff, ← stepPolicyOf_eq_none_iff]
  cases startAt body 3 ((byteAt body 2).getLsbD 0) <;> cases stepPolicyOf (byteAt body 2) <;> simp

theorem planOf_calendar_eq_none_iff {body : List Byte} (h : byteAt body 1 = 2) :
    planOf body = none ↔ patternAt body 3 = none := by
  rw [planOf_calendar h, Option.map_eq_none_iff]

/-- The character of the delivery set, four behind the plan (R182). -/
theorem planEnd_eq {body : List Byte} (h : ¬2 < (byteAt body 1).toNat) : planEnd body + 4 =
    if byteAt body 1 = 2 then 13
    else 7 + (if (byteAt body 2).getLsbD 0 then 4 else 7) + (if byteAt body 1 = 1 then 4 else 0) := by
  unfold planEnd startWidth
  rcases kind_cases h with hk | hk | hk <;> simp [hk] <;> split <;> rfl

/-- Settles O35: `entryOf_eq_none_iff`, with the plan by the kind of the body. -/
theorem createValueChecks : Obligations.CreateValueChecks := by
  intro p body _ kind options relative delivery outOf
  rw [entryOf_eq_none_iff]
  by_cases hundefined : 2 < kind.toNat
  · exact iff_of_true (.inl (planOf_undefined hundefined)) (.inl hundefined)
  · have hdelivery : byteAt body (planEnd body + 4) = delivery := by
      rw [planEnd_eq hundefined]
      exact apply_ite (byteAt body) _ _ _
    rw [hdelivery]
    generalize delivery = d
    have hle : kind.toNat ≤ 2 := Nat.le_of_not_lt hundefined
    rcases kind_cases hundefined with hk | hk | hk
    · obtain ⟨hone, htwo, hlt⟩ : ¬kind = 1 ∧ ¬kind = 2 ∧ kind.toNat < 2 := by
        rw [show kind = 0 from hk]; decide
      rw [planOf_once_eq_none_iff hk]
      simp only [eq_false hundefined, eq_false hone, eq_false htwo, eq_true hle, eq_true hlt, ne_eq,
        not_false_eq_true, true_and, false_and, false_or]
      tauto
    · obtain ⟨hone, htwo, hlt⟩ : kind = 1 ∧ ¬kind = 2 ∧ kind.toNat < 2 := by
        rw [show kind = 1 from hk]; decide
      have hperiod : 3 + startWidth relative = if relative then 7 else 10 := by
        cases relative <;> rfl
      rw [planOf_periodic_eq_none_iff hk, show startWidth _ = startWidth relative from rfl, hperiod]
      simp only [eq_false hundefined, eq_true hone, eq_false htwo, eq_true hle, eq_true hlt, ne_eq,
        not_false_eq_true, true_and, false_and, false_or]
      tauto
    · obtain ⟨hone, htwo, hlt⟩ : ¬kind = 1 ∧ kind = 2 ∧ ¬kind.toNat < 2 := by
        rw [show kind = 2 from hk]; decide
      have hpattern : patternAt body 3 = none ↔ outOf 3 1 12 ∨ outOf 4 1 31 ∨ outOf 5 1 7 ∨
          outOf 6 0 23 ∨ outOf 7 0 59 ∨ outOf 8 0 59 := by
        simp only [patternAt_eq_none_iff, patternField_eq_none_iff, outOf]
      rw [planOf_calendar_eq_none_iff hk, hpattern]
      simp only [eq_false hundefined, eq_false hone, eq_true htwo, eq_true hle, eq_false hlt, ne_eq,
        not_true_eq_false, true_and, false_and, false_or]
      exact or_congr Iff.rfl or_comm

end Sys2Proof.Machine
end

section
/-! PROOFS. QUERY PARAMETERS of an entry is a CREATE body again (O36). -/

namespace Sys2Proof.Machine

/-! ### Reading back what is written -/

theorem byteOf_toNat {n : Nat} (h : n < 256) : (byteOf n).toNat = n :=
  (BitVec.toNat_ofNat n 8).trans (Nat.mod_eq_of_lt h)

@[simp] theorem natBytes_length (width n : Nat) : (natBytes width n).length = width := by
  induction width with
  | zero => rfl
  | succ width ih => simp [natBytes, ih]

/-- Characters behind those already read are read on (R181). -/
theorem bytesToNat_foldl (width n acc : Nat) :
    (natBytes width n).foldl (fun n b => n * 256 + b.toNat) acc =
      acc * 256 ^ width + n % 256 ^ width := by
  induction width generalizing acc with
  | zero => simp [natBytes, Nat.mod_one]
  | succ width ih =>
    rw [natBytes, List.foldl_cons, ih, BitVec.toNat_ofNat, Nat.pow_succ 256 width,
      Nat.mod_mul, show (2 : Nat) ^ 8 = 256 from rfl]
    ring

/-- A number is read back from its characters (R181). -/
theorem bytesToNat_natBytes {width n : Nat} (h : n < 256 ^ width) :
    bytesToNat (natBytes width n) = n := by
  unfold bytesToNat
  rw [bytesToNat_foldl, Nat.mod_eq_of_lt h, Nat.zero_mul, Nat.zero_add]

theorem byteAt_append (a b : List Byte) (i : Nat) : byteAt (a ++ b) (a.length + i) = byteAt b i := by
  simp [byteAt, List.getD, List.getElem?_append_right]

theorem numberAt_append (a b : List Byte) (i width : Nat) :
    numberAt (a ++ b) (a.length + i) width = numberAt b i width := by
  simp [numberAt, List.drop_append, List.drop_of_length_le]

/-- A number is read back where it stands. -/
theorem numberAt_natBytes {width n : Nat} (a b : List Byte) (h : n < 256 ^ width) :
    numberAt (a ++ (natBytes width n ++ b)) a.length width = n := by
  rw [show a.length = a.length + 0 from rfl, numberAt_append]
  unfold numberAt
  rw [List.drop_zero, List.take_append_of_le_length (by simp), List.take_of_length_le (by simp),
    bytesToNat_natBytes h]

theorem monthLength_le (year month : Nat) : monthLength year month ≤ 31 := by
  unfold monthLength
  split_ifs <;> decide

/-- An instant of the epoch is read back as its calendar view (R181). -/
theorem instantAt_instantBytes (a b : List Byte) {count : Nat} (h : count ≤ Config.lastInstant) :
    instantAt (a ++ (instantBytes count ++ b)) a.length = calendarView count := by
  obtain ⟨hy, -, hm, -, hd, hh, hmi, hs, hf⟩ := (Calendar.isReal_iff _).mp (calendarView_isReal h)
  have hd := hd.trans (monthLength_le _ _)
  unfold instantAt
  simp only [byteAt_append]
  show Calendar.mk (byteOf _).toNat (byteOf _).toNat (byteOf _).toNat (byteOf _).toNat (byteOf _).toNat
    (byteOf _).toNat (byteOf _).toNat = _
  rw [byteOf_toNat (by omega), byteOf_toNat (by omega), byteOf_toNat (by omega),
    byteOf_toNat (by omega), byteOf_toNat (by omega), byteOf_toNat (by omega), byteOf_toNat (by omega)]

/-! ### The plan -/

/-- The start of an entry fits its characters. -/
def Start.Fits : Start → Prop
  | .absolute c => c ≤ Config.lastInstant
  | .relative o => o < 4294967296

/-- A start is read back in either form (R181). -/
theorem startAt_bytes (a b : List Byte) {start : Start} (h : start.Fits) :
    startAt (a ++ (start.bytes ++ b)) a.length start.isRelative = some start := by
  cases start with
  | absolute c =>
    have hview : instantAt (a ++ ((Start.absolute c).bytes ++ b)) a.length = calendarView c :=
      instantAt_instantBytes a b h
    show (if (instantAt _ _).isReal then _ else _) = _
    rw [hview, if_pos (calendarView_isReal h), toCount_calendarView h]
  | relative o =>
    exact congrArg (fun n => some (Start.relative n)) (numberAt_natBytes a b (width := 4) h)

theorem Start.bytes_length (start : Start) : start.bytes.length = startWidth start.isRelative := by
  cases start with
  | absolute c => rfl
  | relative o => exact natBytes_length 4 o

/-- A pattern field in its range. -/
def fieldIn (lo hi : Nat) (field : Option Nat) : Prop := ∀ v, field = some v → lo ≤ v ∧ v ≤ hi

/-- A pattern field is read back from its character (R181). -/
theorem patternField_patternByte {lo hi : Nat} {field : Option Nat} (hhi : hi < 255)
    (h : fieldIn lo hi field) : patternField (patternByte field) lo hi = some field := by
  cases field with
  | none => rfl
  | some v =>
    obtain ⟨hlo, hv⟩ := h v rfl
    have hnat : (byteOf v).toNat = v := byteOf_toNat (by omega)
    have hany : byteOf v ≠ 0xFF := fun e => by
      have := congrArg BitVec.toNat e
      rw [hnat] at this
      exact absurd this (by simp; omega)
    unfold patternField patternByte
    dsimp only
    rw [if_neg hany, hnat, if_pos ⟨hlo, hv⟩]

/-- The fields of a pattern in their ranges (R65). -/
structure Pattern.Fits (q : Pattern) : Prop where
  month : fieldIn 1 12 q.month
  day : fieldIn 1 31 q.day
  weekday : fieldIn 1 7 q.weekday
  hour : fieldIn 0 23 q.hour
  minute : fieldIn 0 59 q.minute
  second : fieldIn 0 59 q.second

theorem patternAt_bytes (a b : List Byte) {q : Pattern} (h : q.Fits) :
    patternAt (a ++ ((Plan.calendar q).bytes ++ b)) a.length = some q := by
  have hread (i : Nat) : byteAt (a ++ ((Plan.calendar q).bytes ++ b)) (a.length + i) =
      byteAt ((Plan.calendar q).bytes ++ b) i := byteAt_append _ _ i
  unfold patternAt
  rw [show byteAt (a ++ ((Plan.calendar q).bytes ++ b)) a.length = patternByte q.month from hread 0,
    show byteAt _ (a.length + 1) = patternByte q.day from hread 1,
    show byteAt _ (a.length + 2) = patternByte q.weekday from hread 2,
    show byteAt _ (a.length + 3) = patternByte q.hour from hread 3,
    show byteAt _ (a.length + 4) = patternByte q.minute from hread 4,
    show byteAt _ (a.length + 5) = patternByte q.second from hread 5,
    patternField_patternByte (by decide) h.month, patternField_patternByte (by decide) h.day,
    patternField_patternByte (by decide) h.weekday, patternField_patternByte (by decide) h.hour,
    patternField_patternByte (by decide) h.minute, patternField_patternByte (by decide) h.second]
  rfl

/-! ### The options character -/

/-- The free bits of the options character leave the others as they are (R181). -/
theorem getLsbD_masked {mask free x : Byte} {i : Nat} (h : mask.getLsbD i = false) :
    ((free &&& mask) ||| x).getLsbD i = x.getLsbD i := by
  simp [BitVec.getLsbD_or, BitVec.getLsbD_and, h]

/-- The fields of the options character of a ONCE or PERIODIC entry (R181). -/
theorem options_started (free : Byte) (start : Start) (pol : StepPolicy) (orphan : OrphanPolicy)
    (wake : Bool) :
    let x := (free &&& 0xC0) ||| byteOf (start.isRelative.toNat + 2 * pol.code +
      (8 * orphan.code + 32 * wake.toNat))
    x.getLsbD 0 = start.isRelative ∧ stepPolicyOf x = some pol ∧ orphanPolicyOf x = some orphan ∧
      x.getLsbD 5 = wake := by
  dsimp only
  rw [stepPolicyOf_eq, orphanPolicyOf_eq, getLsbD_masked rfl, getLsbD_masked rfl, getLsbD_masked rfl,
    getLsbD_masked rfl, getLsbD_masked rfl, getLsbD_masked rfl]
  cases start.isRelative <;> cases pol <;> cases orphan <;> cases wake <;> decide

/-- The fields of the options character of a MATCH entry (R181). -/
theorem options_calendar (free : Byte) (orphan : OrphanPolicy) (wake : Bool) :
    let x := (free &&& 0xC7) ||| byteOf (8 * orphan.code + 32 * wake.toNat)
    orphanPolicyOf x = some orphan ∧ x.getLsbD 5 = wake := by
  dsimp only
  rw [orphanPolicyOf_eq, getLsbD_masked rfl, getLsbD_masked rfl, getLsbD_masked rfl]
  cases orphan <;> cases wake <;> decide

theorem portSetOf_portSetByte (set : PortSet) : portSetOf (portSetByte set) = set := by
  obtain ⟨a, b, c, d⟩ := set
  cases a <;> cases b <;> cases c <;> cases d <;> rfl

/-! ### The body -/

/-- The plan and the repeat limit of an entry in their ranges. -/
def Entry.Fits (e : Entry) : Prop :=
  match e.plan with
  | .once start _ => e.repeatLimit = 1 ∧ start.Fits
  | .periodic start period _ => 0 < period ∧ period < 4294967296 ∧ start.Fits
  | .calendar q => q.Fits

/-- The characters of a CREATE body behind its plan (R182). -/
def Entry.tailBytes (e : Entry) : List Byte :=
  natBytes 2 e.repeatLimit ++ (natBytes 2 e.tolerance ++ ([portSetByte e.delivery] ++
    natBytes 4 e.tag.toNat))

theorem parameterBytes_eq (e : Entry) (free : Byte) : 0x40 :: parameterBytes e free =
    [0x40, e.plan.kindCode, optionsByte e free] ++ (e.plan.bytes ++ e.tailBytes) := by
  simp [parameterBytes, Entry.tailBytes]

section Body

variable {e : Entry} (free : Byte)

/-- The options of an entry whose start has a form, by its plan (R181). -/
theorem optionsByte_once {start : Start} {pol : StepPolicy} (h : e.plan = .once start pol) :
    (optionsByte e free).getLsbD 0 = start.isRelative ∧ stepPolicyOf (optionsByte e free) = some pol := by
  obtain ⟨hrelative, hpol, -, -⟩ := options_started free start pol e.orphan e.wake
  unfold optionsByte
  rw [h]
  exact ⟨hrelative, hpol⟩

theorem optionsByte_periodic {start : Start} {period : Nat} {pol : StepPolicy}
    (h : e.plan = .periodic start period pol) :
    (optionsByte e free).getLsbD 0 = start.isRelative ∧ stepPolicyOf (optionsByte e free) = some pol := by
  obtain ⟨hrelative, hpol, -, -⟩ := options_started free start pol e.orphan e.wake
  unfold optionsByte
  rw [h]
  exact ⟨hrelative, hpol⟩

/-- The options of every entry give its orphan policy and its wake flag (R181). -/
theorem optionsByte_common (e : Entry) (free : Byte) :
    orphanPolicyOf (optionsByte e free) = some e.orphan ∧ (optionsByte e free).getLsbD 5 = e.wake := by
  unfold optionsByte
  cases e.plan with
  | once start pol => exact (options_started free start pol e.orphan e.wake).2.2
  | periodic start period pol => exact (options_started free start pol e.orphan e.wake).2.2
  | calendar q => exact options_calendar free e.orphan e.wake

theorem byteAt_parameters_kind : byteAt (0x40 :: parameterBytes e free) 1 = e.plan.kindCode := rfl

theorem byteAt_parameters_options : byteAt (0x40 :: parameterBytes e free) 2 = optionsByte e free := rfl

/-- The start stands behind the options character, whatever follows it. -/
theorem startAt_parameters {start : Start} {rest : List Byte} (hfits : start.Fits)
    (h : e.plan.bytes = start.bytes ++ rest) :
    startAt (0x40 :: parameterBytes e free) 3 start.isRelative = some start := by
  rw [parameterBytes_eq, h, List.append_assoc]
  exact startAt_bytes [0x40, e.plan.kindCode, optionsByte e free] _ hfits

/-- The period stands behind the start. -/
theorem numberAt_parameters_period {start : Start} {period : Nat} {pol : StepPolicy}
    (h : e.plan = .periodic start period pol) (hperiod : period < 4294967296) :
    numberAt (0x40 :: parameterBytes e free) (3 + startWidth start.isRelative) 4 = period := by
  have hlength : 3 + startWidth start.isRelative =
      ([0x40, e.plan.kindCode, optionsByte e free] ++ start.bytes).length := by
    rw [List.length_append, Start.bytes_length]; rfl
  have hbody : 0x40 :: parameterBytes e free = ([0x40, e.plan.kindCode, optionsByte e free] ++ start.bytes) ++
      (natBytes 4 period ++ e.tailBytes) := by
    rw [parameterBytes_eq, h]
    simp [Plan.bytes]
  rw [hlength, hbody]
  exact numberAt_natBytes _ _ hperiod

/-- The plan ends where its characters end (R182). -/
theorem planEnd_parameters : planEnd (0x40 :: parameterBytes e free) = 3 + e.plan.bytes.length := by
  unfold planEnd
  rw [byteAt_parameters_kind, byteAt_parameters_options]
  cases hplan : e.plan with
  | once start pol =>
    rw [(optionsByte_once free hplan).1, ← Start.bytes_length]
    rfl
  | periodic start period pol =>
    rw [(optionsByte_periodic free hplan).1, ← Start.bytes_length]
    simp [Plan.kindCode, Plan.bytes, Nat.add_assoc]
  | calendar q => rfl

/-- The plan is read back whole (R182). -/
theorem planOf_parameters (h : e.Fits) : planOf (0x40 :: parameterBytes e free) =
    some (e.plan, planEnd (0x40 :: parameterBytes e free)) := by
  unfold Entry.Fits at h
  cases hplan : e.plan with
  | once start pol =>
    rw [hplan] at h
    obtain ⟨-, hstart⟩ := h
    obtain ⟨hrelative, hpol⟩ := optionsByte_once free hplan
    rw [planOf_once (by rw [byteAt_parameters_kind, hplan]; rfl), byteAt_parameters_options, hrelative,
      hpol, startAt_parameters free hstart (rest := []) (by rw [hplan]; exact (List.append_nil _).symm)]
    rfl
  | periodic start period pol =>
    rw [hplan] at h
    obtain ⟨hpos, hperiod, hstart⟩ := h
    obtain ⟨hrelative, hpol⟩ := optionsByte_periodic free hplan
    rw [planOf_periodic (by rw [byteAt_parameters_kind, hplan]; rfl), byteAt_parameters_options, hrelative,
      hpol, startAt_parameters free hstart (rest := natBytes 4 period) (by rw [hplan]; rfl)]
    simp only [Option.bind_some, numberAt_parameters_period free hplan hperiod,
      if_neg (Nat.ne_of_gt hpos)]
  | calendar q =>
    rw [hplan] at h
    have hpattern : patternAt (0x40 :: parameterBytes e free) 3 = some q := by
      rw [parameterBytes_eq, hplan]
      exact patternAt_bytes [0x40, _, _] _ h
    rw [planOf_calendar (by rw [byteAt_parameters_kind, hplan]; rfl), hpattern]
    rfl

/-- The characters from the kind to the end of the plan (R182). -/
def Entry.frontBytes (e : Entry) (free : Byte) : List Byte :=
  [0x40, e.plan.kindCode, optionsByte e free] ++ e.plan.bytes

theorem parameterBytes_eq_front : 0x40 :: parameterBytes e free = e.frontBytes free ++ e.tailBytes := by
  rw [parameterBytes_eq, Entry.frontBytes, List.append_assoc]

theorem frontBytes_length : (e.frontBytes free).length = planEnd (0x40 :: parameterBytes e free) := by
  rw [planEnd_parameters, Entry.frontBytes, List.length_append]; rfl

theorem tailBytes_length : e.tailBytes.length = 9 := by
  simp [Entry.tailBytes]

theorem parameters_length : (0x40 :: parameterBytes e free).length = 12 + e.plan.bytes.length := by
  rw [parameterBytes_eq_front, List.length_append, frontBytes_length, planEnd_parameters, tailBytes_length]
  omega

/-- The length check of CREATE counts what the plan occupies (R182). -/
theorem createLengthOk_parameters : createLengthOk (0x40 :: parameterBytes e free) = true := by
  unfold createLengthOk
  rw [byteAt_parameters_kind, byteAt_parameters_options, parameters_length, if_neg (by omega)]
  cases hplan : e.plan with
  | once start pol =>
    rw [(optionsByte_once free hplan).1]
    dsimp only
    rw [← Start.bytes_length]
    exact beq_self_eq_true _
  | periodic start period pol =>
    rw [(optionsByte_periodic free hplan).1]
    dsimp only
    rw [← Start.bytes_length]
    simp [Plan.kindCode, Plan.bytes]
    omega
  | calendar q => rfl

theorem parameters_length_le : (0x40 :: parameterBytes e free).length ≤ Config.bodyRoom := by
  have hstart (start : Start) : start.bytes.length ≤ 7 := by
    rw [Start.bytes_length, startWidth]; split <;> decide
  rw [parameters_length]
  show _ ≤ 24
  cases e.plan with
  | once start pol => exact (Nat.add_le_add_left (hstart start) 12).trans (by decide)
  | periodic start period pol =>
    have := hstart start
    simp only [Plan.bytes, List.length_append, natBytes_length]
    omega
  | calendar q => simp [Plan.bytes]

/-- The fields behind the plan are read back (R182). -/
theorem tail_readings (hlimit : e.repeatLimit ≤ 65535) (htolerance : e.tolerance ≤ 65535) :
    let body := 0x40 :: parameterBytes e free
    let pos := planEnd body
    numberAt body pos 2 = e.repeatLimit ∧ numberAt body (pos + 2) 2 = e.tolerance ∧
      portSetOf (byteAt body (pos + 4)) = e.delivery ∧
      BitVec.ofNat 32 (numberAt body (pos + 5) 4) = e.tag := by
  dsimp only
  rw [← frontBytes_length, parameterBytes_eq_front]
  simp only [numberAt_append, byteAt_append]
  refine ⟨?_, ?_, ?_, ?_⟩
  · exact (numberAt_append _ _ 0 2).trans (numberAt_natBytes [] _ (Nat.lt_succ_of_le hlimit))
  · exact numberAt_natBytes (natBytes 2 e.repeatLimit) _ (Nat.lt_succ_of_le htolerance)
  · exact portSetOf_portSetByte e.delivery
  · have htag := numberAt_natBytes (width := 4)
      (natBytes 2 e.repeatLimit ++ (natBytes 2 e.tolerance ++ [portSetByte e.delivery])) [] e.tag.isLt
    rw [List.append_nil, List.append_assoc, List.append_assoc] at htag
    exact (congrArg (BitVec.ofNat 32) htag).trans
      ((BitVec.ofNat_toNat 32 e.tag).trans (BitVec.setWidth_eq e.tag))

/-- ONCE has the repeat limit 1 that CREATE gives it (R22). -/
theorem limit_of_fits (h : e.Fits) : e.plan.limit e.repeatLimit = e.repeatLimit := by
  unfold Entry.Fits at h
  unfold Plan.limit
  split
  · next start pol hplan => rw [hplan] at h; exact h.1.symm
  · rfl

theorem entryOf_parameters (p : Port) (h : e.Fits) (hlimit : e.repeatLimit ≤ 65535)
    (htolerance : e.tolerance ≤ 65535) (hdelivery : e.delivery ≠ PortSet.empty) :
    entryOf p (0x40 :: parameterBytes e free) = some { e with
      owner := p, state := .held, fireTotal := 0, remaining := remainingOf e.repeatLimit } := by
  obtain ⟨horphan, hwake⟩ := optionsByte_common e free
  obtain ⟨hlimitAt, htoleranceAt, hdeliveryAt, htagAt⟩ := tail_readings free hlimit htolerance
  unfold entryOf
  rw [planOf_parameters free h, byteAt_parameters_options, horphan, hwake]
  simp only [Option.bind_eq_bind, Option.bind_some, hlimitAt, htoleranceAt, hdeliveryAt, htagAt,
    if_neg hdelivery, limit_of_fits h]
  rfl

end Body

theorem fieldIn_zero {hi : Nat} {field : Option Nat} (h : ∀ v, field = some v → v ≤ hi) :
    fieldIn 0 hi field := fun v hv => ⟨Nat.zero_le v, h v hv⟩

/-- Settles O36: each field is read back at the position where it is written. -/
theorem parametersAreACreateBody : Obligations.ParametersAreACreateBody := by
  intro e free p hranges hlimit htolerance hdelivery
  have hfits : e.Fits := by
    unfold Entry.Fits
    cases hplan : e.plan with
    | once start pol => rw [hplan] at hranges; cases start <;> exact hranges
    | periodic start period pol => rw [hplan] at hranges; cases start <;> exact hranges
    | calendar q =>
      rw [hplan] at hranges
      obtain ⟨hmonth, hday, hweekday, hhour, hminute, hsecond⟩ := hranges
      exact ⟨hmonth, hday, hweekday, fieldIn_zero hhour, fieldIn_zero hminute, fieldIn_zero hsecond⟩
  exact ⟨createLengthOk_parameters free, parameters_length_le free,
    entryOf_parameters free p hfits hlimit htolerance hdelivery⟩

end Sys2Proof.Machine
end

section
/-! PROOFS. Every step keeps the Due List to the ARMED entries, in order (O6). -/

namespace Sys2Proof.Machine

/-! ### The Due List after writing or freeing an entry -/

section Members

variable {s : State} {i : SlotNo} {e : Entry} {ref : Reference}

/-- Writing an entry leaves the members of the other slots; its slot is then in the list with the due it
is ARMED with (R24, R47). -/
theorem State.mem_place_dueList {x : DueItem} : x ∈ (s.place i e ref).dueList ↔
    if x.slot = i then e.state = .armed x.due else x ∈ s.dueList := by
  have hothers : x ∈ s.dueList.filter (·.slot != i) ↔ x ∈ s.dueList ∧ x.slot ≠ i := by
    simp [List.mem_filter]
  by_cases harmed : ∃ due, e.state = .armed due
  · obtain ⟨due, hdue⟩ := harmed
    rw [(State.place_of_armed hdue).1, mem_insertDue, hothers, hdue]
    by_cases hx : x.slot = i
    · obtain ⟨xdue, xslot⟩ := x
      subst hx
      simp [eq_comm]
    · have hne : x ≠ ⟨due, i⟩ := fun h => hx (h ▸ rfl)
      simp [hx, hne]
  · have hnot : ∀ due, e.state ≠ .armed due := not_exists.mp harmed
    rw [(State.place_of_not_armed hnot).1, hothers]
    by_cases hx : x.slot = i <;> simp [hx, hnot]

/-- A slot is ARMED after writing its entry as the entry says, and every other as before. -/
theorem State.place_armedAt {j : SlotNo} {due : Nat} : (s.place i e ref).armedAt j due ↔
    if j = i then e.state = .armed due else s.armedAt j due := by
  unfold State.armedAt
  rw [State.place_entry_eq]
  by_cases hj : j = i <;> simp [hj]

theorem State.place_dueList_ordered (h : s.dueList.Pairwise fun a b => a.before b = true) :
    (s.place i e ref).dueList.Pairwise fun a b => a.before b = true := by
  have hothers := h.filter (·.slot != i)
  by_cases harmed : ∃ due, e.state = .armed due
  · obtain ⟨due, hdue⟩ := harmed
    rw [(State.place_of_armed hdue).1]
    exact insertDue_pairwise (x := ⟨due, i⟩) (by simp) hothers
  · rw [(State.place_of_not_armed (not_exists.mp harmed)).1]
    exact hothers

end Members

/-! ### The law -/

/-- The law looks at nothing but the slots and the list. -/
theorem DueListLaw.of_parts {s t : State} (hs : DueListLaw s) (hslots : t.table.slots = s.table.slots)
    (hlist : t.dueList = s.dueList) : DueListLaw t where
  ordered := hlist ▸ hs.ordered
  exact i due := by
    have hentry : t.entry i = s.entry i :=
      congrArg (fun slots : Vector Slot 64 => (slots.get i).entry) hslots
    unfold State.armedAt
    rw [hlist, hentry]
    exact hs.exact i due

theorem DueListLaw.place {s : State} (hs : DueListLaw s) (i : SlotNo) (e : Entry) (ref : Reference) :
    DueListLaw (s.place i e ref) where
  ordered := State.place_dueList_ordered hs.ordered
  exact j due := by
    rw [State.mem_place_dueList, State.place_armedAt]
    split
    · rfl
    · exact hs.exact j due

theorem DueListLaw.freeSlot {s : State} (hs : DueListLaw s) (i : SlotNo) :
    DueListLaw (s.freeSlot i) where
  ordered := hs.ordered.filter _
  exact j due := by
    have hlist : (s.freeSlot i).dueList = s.dueList.filter (·.slot != i) := rfl
    unfold State.armedAt
    rw [hlist, State.freeSlot_entry_eq, List.mem_filter, hs.exact]
    by_cases hj : j = i <;> simp [hj, State.armedAt]

theorem dueListLaw_invariant : ScheduleInvariant DueListLaw where
  frame := by
    intro s t hs h
    obtain ⟨hslots, -, hlist, -⟩ := State.schedule_eq_iff.mp h
    exact hs.of_parts hslots hlist
  created := fun hs _ _ _ => hs.place _ _ _
  rewritten := fun hs _ _ => hs.place _ _ _
  freed := fun i hs => hs.freeSlot i
  sought := fun _ _ hs => hs.of_parts rfl rfl
  quota := fun _ _ hs _ _ => hs.of_parts rfl rfl
  looked := fun _ _ _ hs => hs.of_parts rfl rfl
  searched := fun _ hs => hs.of_parts rfl rfl
  taken := fun _ _ hs _ _ => hs.of_parts rfl rfl
  timeTaken := fun _ _ hs _ _ => hs.of_parts rfl rfl
  stepped := fun _ _ _ hs => hs.of_parts rfl rfl
  epochEnded := fun hs => hs.of_parts rfl rfl
  cold := fun _ _ _ _ _ _ => reset_dueListLaw.of_parts rfl rfl

/-- Settles O6: an entry joins and leaves the Due List only as it is written or freed
(`DueListLaw.place`, `DueListLaw.freeSlot`), and no other move touches the slots or the list. -/
theorem dueListLawKept : Obligations.DueListLawKept := dueListLaw_invariant.keptByStep

end Sys2Proof.Machine
end

section
/-! PROOFS. The looks of the Due Monitor (O44). -/

namespace Sys2Proof.Machine

/-! ### The leading members of the Due List -/

/-- In a list in which what holds of a member holds of those ahead of it, the leading members it holds
of are all those it holds of. -/
theorem mem_takeWhile_of_pairwise {α : Type} {r : α → α → Prop} {p : α → Bool}
    (hp : ∀ a b, r a b → p b = true → p a = true) {l : List α} (h : l.Pairwise r) {x : α} :
    x ∈ l.takeWhile p ↔ x ∈ l ∧ p x = true := by
  induction l with
  | nil => simp
  | cons y rest ih =>
    obtain ⟨hy, hrest⟩ := List.pairwise_cons.mp h
    by_cases hpy : p y = true
    · rw [List.takeWhile_cons_of_pos hpy, List.mem_cons, List.mem_cons, ih hrest]
      constructor
      · rintro (rfl | ⟨hx, hpx⟩)
        · exact ⟨.inl rfl, hpy⟩
        · exact ⟨.inr hx, hpx⟩
      · rintro ⟨rfl | hx, hpx⟩
        · exact .inl rfl
        · exact .inr ⟨hx, hpx⟩
    · rw [List.takeWhile_cons_of_neg hpy]
      refine iff_of_false List.not_mem_nil ?_
      rintro ⟨hx, hpx⟩
      rcases List.mem_cons.mp hx with rfl | hx
      · exact hpy hpx
      · exact hpy (hp y x (hy x hx) hpx)

/-! ### The claims of a look -/

section Claims

variable {s : State} {instant : Nat} {passed : Option Nat}

/-- The claims of a look are those of the ARMED entries it has reached (R50). -/
theorem mem_lookClaims (h : DueListLaw s) {c : FiringClaim} : c ∈ lookClaims s instant passed ↔
    ∃ i e due, s.entry i = some e ∧ e.state = .armed due ∧ due ≤ instant ∧
      c = firingClaimFor ⟨i, (s.slot i).gen⟩ e instant passed due := by
  have hreached (x : DueItem) : x ∈ s.dueList.takeWhile (fun x => decide (x.due ≤ instant)) ↔
      s.armedAt x.slot x.due ∧ x.due ≤ instant := by
    rw [mem_takeWhile_of_pairwise (fun a b hab hb => ?_) h.ordered, ← h.exact, decide_eq_true_eq]
    have hbefore := DueItem.before_iff.mp hab
    simp only [decide_eq_true_eq] at hb ⊢
    omega
  unfold lookClaims
  rw [List.mem_filterMap]
  constructor
  · rintro ⟨x, hx, hc⟩
    obtain ⟨e, he, rfl⟩ := Option.map_eq_some_iff.mp hc
    obtain ⟨⟨e', he', harmed⟩, hle⟩ := (hreached x).mp hx
    cases he.symm.trans he'
    exact ⟨x.slot, e, x.due, he, harmed, hle, rfl⟩
  · rintro ⟨i, e, due, he, harmed, hle, rfl⟩
    refine ⟨⟨due, i⟩, (hreached ⟨due, i⟩).mpr ⟨⟨e, he, harmed⟩, hle⟩, ?_⟩
    rw [he]
    rfl

/-- The claims of a look stand in the order of the Due List (R50). -/
theorem lookClaims_ordered (h : DueListLaw s) : (lookClaims s instant passed).Pairwise fun c d =>
    c.due < d.due ∨ c.due = d.due ∧ c.handle.slot < d.handle.slot := by
  unfold lookClaims
  rw [List.pairwise_filterMap]
  refine (h.ordered.sublist (List.takeWhile_sublist _)).imp ?_
  intro a b hab c hc d hd
  obtain ⟨e, -, rfl⟩ := Option.map_eq_some_iff.mp hc
  obtain ⟨e', -, rfl⟩ := Option.map_eq_some_iff.mp hd
  exact DueItem.before_iff.mp hab

end Claims

/-! ### The command -/

/-- The claims a look hands on: none in RESCAN mode (R49). -/
theorem lookAt_presented (stamp instant : Nat) (passed : Option Nat) (s : State) :
    lookAt (.presented stamp instant passed) s = { s with transit := { s.transit with
      firings := s.transit.firings ++ (if s.table.mode = .normal then
        (lookClaims s instant passed).map fun c => ⟨stamp, c⟩ else []) } } := by
  unfold lookAt
  by_cases hm : s.table.mode = .normal
  · simp [State.tableNormal, hm]
  · simp [State.tableNormal, hm]

/-- A look at a join or at the end of a rescan is one at the Timebase's instant (R49). -/
theorem lookAt_tableEvent (s : State) :
    lookAt .tableEvent s = lookAt (.presented s.transit.stamp s.time.instant none) s := rfl

/-- A look takes the oldest event of its source (R49). -/
theorem execLook_of_find {s : State} {src : LookSource} {m : LookMsg}
    (h : s.transit.looks.find? (·.isFrom src) = some m) : execLook src s =
      .next (lookAt m { s with transit := { s.transit with looks := s.transit.looks.erase m } }) := by
  unfold execLook
  rw [h]

/-- The events of the Schedule Table are all one. -/
theorem find?_isFrom_table {looks : List LookMsg} (h : LookMsg.tableEvent ∈ looks) :
    looks.find? (·.isFrom .table) = some .tableEvent := by
  have hsome : (looks.find? (·.isFrom .table)).isSome = true :=
    List.find?_isSome.mpr ⟨.tableEvent, h, rfl⟩
  obtain ⟨m, hm⟩ := Option.isSome_iff_exists.mp hsome
  have htable : m = .tableEvent := by simpa [LookMsg.isFrom] using List.find?_some hm
  rw [hm, htable]

/-- Settles O44: the claims by `mem_lookClaims` and `lookClaims_ordered`, the two sources by
`lookAt_presented`. -/
theorem lookFiresReachedEntries : Obligations.LookFiresReachedEntries := by
  refine ⟨fun s instant passed h => ⟨fun n due => ⟨?_, ?_⟩, lookClaims_ordered h, fun c hc => ?_⟩,
    fun s stamp instant passed hfind => ?_, fun s hevent => ?_⟩
  · rintro ⟨c, hc, rfl, rfl⟩
    obtain ⟨i, e, due, he, harmed, hle, rfl⟩ := (mem_lookClaims h).mp hc
    exact ⟨⟨e, he, harmed⟩, hle, rfl⟩
  · rintro ⟨⟨e, he, harmed⟩, hle, hgen⟩
    exact ⟨_, (mem_lookClaims h).mpr ⟨n.slot, e, due, he, harmed, hle, rfl⟩,
      congrArg (Handle.mk n.slot) hgen.symm, rfl⟩
  · obtain ⟨i, e, due, he, -, -, rfl⟩ := (mem_lookClaims h).mp hc
    exact ⟨e, (if_pos rfl).trans he, rfl⟩
  · exact (execLook_of_find hfind).trans (congrArg Host.Outcome.next (lookAt_presented _ _ _ _))
  · refine (execLook_of_find (find?_isFrom_table hevent)).trans (congrArg Host.Outcome.next ?_)
    rw [lookAt_tableEvent, lookAt_presented]
    rfl

end Sys2Proof.Machine
end

section
/-! PROOFS. The computation of a firing (O45). -/

namespace Sys2Proof.Machine

/-! ### The next state of a firing -/

section Next

variable {e : Entry} {due k : Nat}

/-- A firing that uses up what remains ends the entry with COUNT_DONE (R22). -/
theorem Entry.nextState_of_usedUp {r : Nat} (hr : e.remaining = some r) (hk : r ≤ k) :
    e.nextState due k = .spent .countDone := by
  simp [Entry.nextState, runsOut, hr, hk]

/-- A firing that leaves some, or an unlimited entry, goes on by the entry's kind (R55 to R58). -/
theorem Entry.nextState_of_left (h : ∀ r, e.remaining = some r → k < r) :
    e.nextState due k = e.plan.onward due k := by
  have hleft : runsOut e.remaining k = false := by
    cases hr : e.remaining with
    | none => rfl
    | some r => simpa [runsOut] using h r hr
  simp [Entry.nextState, hleft]

/-- A ONCE entry ends with COUNT_DONE whatever remains (R55). -/
theorem Entry.nextState_once {start : Start} {pol : StepPolicy} (h : e.plan = .once start pol) :
    e.nextState due k = .spent .countDone := by
  unfold Entry.nextState
  rw [h]
  exact ite_self _

end Next

theorem FiredState.isFinal_iff {n : FiredState} : n.isFinal = true ↔ ∃ cause, n = .spent cause := by
  cases n <;> simp [FiredState.isFinal]

theorem missedBy_iff {tolerance lateness : Nat} :
    missedBy tolerance lateness = true ↔ tolerance ≠ 65535 ∧ tolerance < lateness := by
  simp [missedBy, Config.saturation]

/-! ### The occurrences of a PERIODIC entry -/

section Occurrences

variable {instant due period : Nat}

/-- The occurrences represented are those at or before the instant (R56). -/
theorem occurrence_le_iff (hdue : due ≤ instant) (hp : 0 < period) (j : Nat) :
    due + j * period ≤ instant ↔ j < occurrences instant due period := by
  unfold occurrences
  rw [Nat.lt_succ_iff, Nat.le_div_iff_mul_le hp]
  omega

/-- The occurrence after those represented lies beyond the instant. -/
theorem lt_next_occurrence (hdue : due ≤ instant) (hp : 0 < period) :
    instant < due + occurrences instant due period * period :=
  Nat.lt_of_not_le fun h => Nat.lt_irrefl _ ((occurrence_le_iff hdue hp _).mp h)

end Occurrences

/-- Settles O45: the next state by `Entry.nextState_of_usedUp` and `Entry.nextState_of_left`, the
occurrences of a PERIODIC entry by `occurrence_le_iff`. -/
theorem firingComputed : Obligations.FiringComputed := by
  intro n e instant due passed hdue c late
  have hnext : c.next = e.nextState due c.occurrences := rfl
  have hcount : c.occurrences = e.plan.occurrences instant due := rfl
  refine ⟨rfl, rfl, rfl, missedBy_iff, FiredState.isFinal_iff, ?_, ?_, ?_⟩
  · intro start pol hplan
    exact ⟨by rw [hcount, hplan]; rfl, Entry.nextState_once hplan⟩
  · intro start p pol hplan hp k
    have hk : k = occurrences instant due p := hcount.trans (by rw [hplan]; rfl)
    rw [hnext, show c.occurrences = k from rfl, hk]
    refine ⟨occurrence_le_iff hdue hp, Nat.succ_pos _, fun r => Entry.nextState_of_usedUp,
      fun hleft => ?_⟩
    rw [Entry.nextState_of_left hleft, hplan, Plan.onward_eq]
    exact ⟨fun hbeyond => if_pos hbeyond,
      fun hwithin => ⟨if_neg (Nat.not_lt.mpr hwithin), lt_next_occurrence hdue hp⟩⟩
  · intro pat hplan
    have hone : c.occurrences = 1 := by rw [hcount, hplan]; rfl
    rw [hnext, hone]
    refine ⟨rfl, fun r => Entry.nextState_of_usedUp, fun hleft => ?_⟩
    rw [Entry.nextState_of_left hleft, hplan, Plan.onward_eq]
    exact ⟨fun hwithin => congrArg FiredState.search (if_pos hwithin),
      fun hbeyond => congrArg FiredState.search (if_neg (Nat.not_le.mpr hbeyond))⟩

end Sys2Proof.Machine
end

section
/-! PROOFS. The rescan: its start, the treatment of each slot, and its end (O49). -/

namespace Sys2Proof.Machine

/-! ### The Timebase claim that may be taken (R52) -/

/-- A claim waits where an advance gave rise to it and a presentation or a firing claim handed on before
it is still on its way (R52). -/
def State.claimWaits (s : State) (m : TimeMsg) : Prop :=
  m.fromAdvance = true ∧
    ((∃ stamp instant passed, LookMsg.presented stamp instant passed ∈ s.transit.looks ∧
      stamp < m.stamp) ∨ ∃ x ∈ s.transit.firings, x.stamp < m.stamp)

section Ready

variable {s : State} {m : TimeMsg} {rest : List TimeMsg}

theorem State.timeClaimReady_of_nil (h : s.transit.timeClaims = []) : s.timeClaimReady = none := by
  unfold State.timeClaimReady
  rw [h]

theorem State.timeClaimReady_of_waits (h : s.transit.timeClaims = m :: rest) (hw : s.claimWaits m) :
    s.timeClaimReady = none := by
  obtain ⟨hadvance, hearlier⟩ := hw
  unfold State.timeClaimReady
  rw [h]
  refine if_neg ?_
  simp only [hadvance, Bool.not_true, Bool.false_or, Bool.and_eq_true, List.all_eq_true, not_and_or]
  rcases hearlier with ⟨stamp, instant, passed, hlook, hlt⟩ | ⟨x, hx, hlt⟩
  · refine .inl fun hall => ?_
    exact absurd (of_decide_eq_true (hall _ hlook)) (Nat.not_le.mpr hlt)
  · exact .inr fun hall => absurd (of_decide_eq_true (hall x hx)) (Nat.not_le.mpr hlt)

/-- The oldest claim may be taken where it does not wait. -/
theorem State.timeClaimReady_of_not_waits (h : s.transit.timeClaims = m :: rest)
    (hw : ¬s.claimWaits m) : s.timeClaimReady = some m := by
  unfold State.timeClaimReady
  rw [h]
  refine if_pos ?_
  cases hadvance : m.fromAdvance with
  | false => rfl
  | true =>
    have hearlier := fun h => hw ⟨hadvance, h⟩
    simp only [Bool.not_true, Bool.false_or, Bool.and_eq_true, List.all_eq_true]
    refine ⟨fun look hlook => ?_, fun x hx => ?_⟩
    · cases look with
      | tableEvent => rfl
      | presented stamp instant passed =>
        exact decide_eq_true (Nat.le_of_not_lt fun hlt =>
          hearlier (.inl ⟨stamp, instant, passed, hlook, hlt⟩))
    · exact decide_eq_true (Nat.le_of_not_lt fun hlt => hearlier (.inr ⟨x, hx, hlt⟩))

/-! ### The start of a rescan -/

/-- With no step claim that may be taken the command does nothing (R52). -/
theorem execStepClaim_of_not_ready
    (h : ∀ m delta instant, s.timeClaimReady = some m → m.claim ≠ .step delta instant) :
    execStepClaim s = .next s := by
  unfold execStepClaim
  cases hm : s.timeClaimReady with
  | none => rfl
  | some m =>
    cases hc : m.claim with
    | epochEnd => simp only [hc]
    | step delta instant => exact absurd hc (h m delta instant hm)

/-- A step claim that finds the mode NORMAL starts the rescan (R127). -/
theorem execStepClaim_of_ready {delta : Int} {instant : Nat} (hm : s.timeClaimReady = some m)
    (hc : m.claim = .step delta instant) (hmode : s.table.mode = .normal) :
    execStepClaim s = .next { s with
      table := { s.table with
        mode := .rescan { delta, instant, position := 0 }, heldReleases := [] }
      transit := { s.transit with
        timeClaims := s.transit.timeClaims.drop 1, tableAfter := m.stamp } } := by
  unfold execStepClaim
  simp only [hm, hc, if_pos (s.tableNormal_iff.mpr hmode)]
  rfl

end Ready

/-! ### The visit of a slot -/

/-- The shift of a RELATIVE due, clamped to the epoch from both sides (R130). -/
theorem shiftDue_eq (due : Nat) (delta : Int) :
    shiftDue due delta = (max 0 (min ((due : Int) + delta) (Config.lastInstant : Int))).toNat := by
  unfold shiftDue
  dsimp only
  split <;> omega

theorem StepPolicy.due_eq (pol : StepPolicy) (due : Nat) (delta : Int) :
    pol.due due delta = if pol = .relative then shiftDue due delta else due := by
  cases pol <;> rfl

/-- A rescan gives the engine's run of the slot a new beginning, and no other (R75). -/
theorem Search.resetRef_eq (q : Search) (i : SlotNo) (ref : Reference) : q.resetRef i ref =
    { jobs := q.jobs.map fun j => if j.slot = i then { j with ref } else j
      engine := match q.engine with
        | .running k ph => .running k (if k = i then .searching else ph)
        | other => other } := by
  unfold Search.resetRef
  cases q.engine with
  | running k ph => simp only [apply_ite (Engine.running k)]
  | _ => rfl

section Visit

variable {s : State} {r : Rescan} {i : SlotNo} {e : Entry}

/-- The state once the slot at the visit position has been treated and the rescan moves on (R128). -/
def State.movedOn (s : State) (r : Rescan) : State :=
  { s with table := { s.table with mode := .rescan { r with position := r.position + 1 } } }

/-- A visit treats the entry of the slot at the position, where it holds one, and moves on (R128). -/
theorem execRescanVisit_at (hm : s.table.mode = .rescan r) (hi : i.val = r.position) :
    execRescanVisit s =
      .next (((s.entry i).elim s fun e => visitEntry r i e s).movedOn r) := by
  have hlt : r.position < 64 := hi ▸ i.isLt
  have hslot : (⟨r.position, hlt⟩ : SlotNo) = i := Fin.ext hi.symm
  unfold execRescanVisit
  rw [hm]
  dsimp only
  rw [dif_pos hlt, hslot]
  cases s.entry i <;> rfl

/-- An entry with a step policy and a due has its due treated by the policy (R129, R131). -/
theorem visitEntry_armed {pol : StepPolicy} {due : Nat} (hp : e.plan.policy = some pol)
    (hs : e.state = .armed due) : visitEntry r i e s =
      s.place i { e with state := .armed (pol.due due r.delta) } .pastEpoch := by
  simp only [visitEntry, hp, hs]

theorem visitEntry_suspended {pol : StepPolicy} {due : Nat} (hp : e.plan.policy = some pol)
    (hs : e.state = .suspended (some due)) : visitEntry r i e s =
      s.place i { e with state := .suspended (some (pol.due due r.delta)) } .pastEpoch := by
  simp only [visitEntry, hp, hs]

theorem visitEntry_of_no_due {pol : StepPolicy} (hp : e.plan.policy = some pol)
    (hs : ∀ due, e.state ≠ .armed due ∧ e.state ≠ .suspended (some due)) : visitEntry r i e s = s := by
  unfold visitEntry
  rw [hp]
  cases he : e.state with
  | armed due => exact absurd he (hs due).1
  | suspended due =>
    cases due with
    | none => rfl
    | some due => exact absurd he (hs due).2
  | _ => rfl

/-- An ARMED MATCH entry goes back to search (R132). -/
theorem visitEntry_match_armed {due : Nat} (hp : e.plan.policy = none) (hs : e.state = .armed due) :
    visitEntry r i e s = s.place i { e with state := .searching } (referenceAfter r.instant) := by
  simp only [visitEntry, hp, hs]

/-- The job of a SEARCHING MATCH entry keeps its place (R75, R132). -/
theorem visitEntry_match_searching (hp : e.plan.policy = none) (hs : e.state = .searching) :
    visitEntry r i e s = { s with search := s.search.resetRef i (referenceAfter r.instant) } := by
  simp only [visitEntry, hp, hs]

theorem visitEntry_match_other (hp : e.plan.policy = none) (harmed : ∀ due, e.state ≠ .armed due)
    (hs : e.state ≠ .searching) : visitEntry r i e s = s := by
  unfold visitEntry
  rw [hp]
  cases he : e.state with
  | armed due => exact absurd he (harmed due)
  | searching => exact absurd he hs
  | _ => rfl

end Visit

/-- The step policy is that of a ONCE or PERIODIC entry (R21). -/
theorem Plan.policy_of_started {plan : Plan} {pol : StepPolicy}
    (h : (∃ start, plan = .once start pol) ∨ ∃ start p, plan = .periodic start p pol) :
    plan.policy = some pol := by
  rcases h with ⟨start, rfl⟩ | ⟨start, p, rfl⟩ <;> rfl

/-! ### The end of a rescan -/

/-- Past the last slot the rescan ends (R128, R135). -/
theorem execRescanEnd_of_visited {s : State} {r : Rescan} (hm : s.table.mode = .rescan r)
    (hr : 64 ≤ r.position) :
    let u := s.table.heldReleases.foldl State.releaseEntries s.looksLost
    execRescanEnd s = .next ({ u with
      table := { u.table with mode := .normal, heldReleases := [] } }.handLook .tableEvent) := by
  unfold execRescanEnd
  rw [hm]
  exact congrArg Host.Outcome.next (if_pos hr)

/-- Settles O49: the claim by `State.claimWaits`, each slot by the cases of `visitEntry`, and the end by
`execRescanEnd_of_visited`. -/
theorem rescanTreatsEverySlot : Obligations.RescanTreatsEverySlot := by
  refine ⟨fun s => ⟨State.timeClaimReady_of_nil, fun m rest h => ⟨State.timeClaimReady_of_waits h,
      State.timeClaimReady_of_not_waits h⟩, execStepClaim_of_not_ready⟩,
    fun s fromAdvance claim instant passed => ⟨rfl, rfl⟩,
    fun s m delta instant => execStepClaim_of_ready, ?_,
    fun s r hm hr => execRescanEnd_of_visited hm hr.ge⟩
  intro s r i hm hi moved visits shifted n anew
  have href : referenceAfter r.instant = n := referenceAfter_eq r.instant
  have hshift (pol : StepPolicy) (due : Nat) :
      pol.due due r.delta = if pol = .relative then shifted due else due := by
    rw [StepPolicy.due_eq, shiftDue_eq]
  have hvisited : visits ((s.entry i).elim s fun e => visitEntry r i e s) := execRescanVisit_at hm hi
  refine ⟨fun he => by rwa [he] at hvisited, fun e he => ?_⟩
  have hvisit {t : State} (h : visitEntry r i e s = t) : visits t := by
    rw [he] at hvisited
    exact h ▸ hvisited
  refine ⟨?_, fun pol hplan => ?_⟩
  · rintro ⟨pat, hplan⟩
    have hpolicy : e.plan.policy = none := by rw [hplan]; rfl
    refine ⟨fun due hs => hvisit ?_, fun hs => hvisit ?_,
      fun harmed hs => hvisit (visitEntry_match_other hpolicy harmed hs)⟩
    · rw [visitEntry_match_armed hpolicy hs, href]
    · rw [visitEntry_match_searching hpolicy hs, href,
        show s.search.resetRef i n = anew from Search.resetRef_eq s.search i n]
  · have hpolicy := Plan.policy_of_started hplan
    refine ⟨fun due hs => hvisit ?_, fun due hs => hvisit ?_,
      fun hs => hvisit (visitEntry_of_no_due hpolicy hs)⟩
    · rw [visitEntry_armed hpolicy hs, hshift]
    · rw [visitEntry_suspended hpolicy hs, hshift]

end Sys2Proof.Machine
end

section
/-! PROOFS. Every step keeps the Search Queue to the SEARCHING entries (R68). -/

namespace Sys2Proof.Machine

/-! ### The Search Queue after writing or freeing an entry -/

section Members

variable {s : State} {i : SlotNo} {e : Entry} {ref : Reference}

/-- Writing an entry takes its slot's job out of the queue; a SEARCHING entry's job joins the tail. -/
theorem State.place_jobs : (s.place i e ref).search.jobs =
    s.search.jobs.filter (·.slot != i) ++
      if e.state = .searching then [⟨i, (s.slot i).gen, ref⟩] else [] := by
  split
  · rw [State.place_search_of_searching ‹_›]; rfl
  · rw [State.place_search_of_other ‹_›, List.append_nil]; rfl

/-- A slot is SEARCHING after writing its entry as the entry says, and every other as before. -/
theorem State.place_searchingAt {j : SlotNo} : (s.place i e ref).searchingAt j ↔
    if j = i then e.state = .searching else s.searchingAt j := by
  unfold State.searchingAt
  rw [State.place_entry_eq]
  by_cases hj : j = i <;> simp [hj]

/-- The queue without a slot's job holds no slot twice. -/
theorem filter_slots_nodup {jobs : List Job} (h : (jobs.map (·.slot)).Nodup) (i : SlotNo) :
    ((jobs.filter (·.slot != i)).map (·.slot)).Nodup := (List.filter_sublist.map _).nodup h

theorem mem_filter_slot {jobs : List Job} {j : Job} :
    j ∈ jobs.filter (·.slot != i) ↔ j ∈ jobs ∧ j.slot ≠ i := by
  simp [List.mem_filter]

/-- Writing an entry leaves the jobs of the other slots; its slot then has a job if it is SEARCHING. -/
theorem State.mem_place_jobs {j : Job} : j ∈ (s.place i e ref).search.jobs ↔
    if j.slot = i then e.state = .searching ∧ j = ⟨i, (s.slot i).gen, ref⟩ else j ∈ s.search.jobs := by
  have hjoined : (j ∈ if e.state = .searching then [(⟨i, (s.slot i).gen, ref⟩ : Job)] else []) ↔
      e.state = .searching ∧ j = ⟨i, (s.slot i).gen, ref⟩ := by
    split <;> simp [*]
  rw [State.place_jobs, List.mem_append, mem_filter_slot, hjoined]
  by_cases hj : j.slot = i
  · simp [hj]
  · have hne : j ≠ ⟨i, (s.slot i).gen, ref⟩ := fun h => hj (h ▸ rfl)
    simp [hj, hne]

end Members

/-! ### The law -/

/-- The law looks at nothing but the slots and the jobs. -/
theorem SearchQueueLaw.of_parts {s t : State} (hs : SearchQueueLaw s)
    (hslots : t.table.slots = s.table.slots) (hjobs : t.search.jobs = s.search.jobs) :
    SearchQueueLaw t := by
  have hslot (i : SlotNo) : t.slot i = s.slot i :=
    congrArg (fun slots : Vector Slot 64 => slots.get i) hslots
  refine ⟨hjobs ▸ hs.once, fun i => ?_, fun j hj => ?_⟩
  · unfold State.searchingAt State.entry
    rw [hjobs, hslot]
    exact hs.exact i
  · rw [hslot]
    exact hs.gens j (hjobs ▸ hj)

theorem SearchQueueLaw.place {s : State} (hs : SearchQueueLaw s) (i : SlotNo) (e : Entry)
    (ref : Reference) : SearchQueueLaw (s.place i e ref) where
  once := by
    rw [State.place_jobs, List.map_append]
    refine List.nodup_append.mpr ⟨filter_slots_nodup hs.once i, by split <;> simp, fun a ha b hb => ?_⟩
    obtain ⟨j, hj, rfl⟩ := List.mem_map.mp ha
    split at hb
    · rw [List.mem_singleton.mp hb]
      exact (mem_filter_slot.mp hj).2
    · cases hb
  exact j := by
    rw [State.place_searchingAt]
    simp only [State.mem_place_jobs]
    by_cases hj : j = i
    · subst hj
      rw [if_pos rfl]
      refine ⟨?_, fun h => ⟨⟨j, (s.slot j).gen, ref⟩, by simp [h], rfl⟩⟩
      rintro ⟨k, hk, hkj⟩
      rw [if_pos hkj] at hk
      exact hk.1
    · rw [if_neg hj, ← hs.exact j]
      exact exists_congr fun k => and_congr_left fun hkj => by rw [if_neg (hkj ▸ hj)]
  gens j hj := by
    rw [State.mem_place_jobs] at hj
    split at hj
    · rw [hj.2, s.place_slot_self]
    · rw [s.place_slot_ne ‹_›]
      exact hs.gens j hj

theorem SearchQueueLaw.freeSlot {s : State} (hs : SearchQueueLaw s) (i : SlotNo) :
    SearchQueueLaw (s.freeSlot i) where
  once := filter_slots_nodup hs.once i
  exact j := by
    have hjobs : (s.freeSlot i).search.jobs = s.search.jobs.filter (·.slot != i) := rfl
    unfold State.searchingAt
    rw [hjobs, State.freeSlot_entry_eq]
    simp only [mem_filter_slot]
    split
    · subst_vars
      simp only [reduceCtorEq, false_and, exists_false, iff_false]
      rintro ⟨k, ⟨-, hne⟩, hk⟩
      exact hne hk
    · rename_i hji
      rw [show (∃ e, s.entry j = some e ∧ e.state = .searching) ↔ _ from (hs.exact j).symm]
      exact exists_congr fun k => and_congr_left fun hkj => and_iff_left (hkj ▸ hji)
  gens j hj := by
    obtain ⟨hmem, hne⟩ := mem_filter_slot.mp hj
    rw [s.freeSlot_slot_ne hne]
    exact hs.gens j hmem

/-- A job of a slot with a new reference, and every other as it was (R75). -/
def Job.renewed (i : SlotNo) (ref : Reference) (j : Job) : Job :=
  if j.slot = i then { j with ref } else j

theorem Search.resetRef_jobs_renewed (q : Search) (i : SlotNo) (ref : Reference) :
    (q.resetRef i ref).jobs = q.jobs.map (Job.renewed i ref) := rfl

@[simp] theorem Job.renewed_slot (i : SlotNo) (ref : Reference) (j : Job) :
    (j.renewed i ref).slot = j.slot := by
  unfold Job.renewed; split <;> rfl

@[simp] theorem Job.renewed_gen (i : SlotNo) (ref : Reference) (j : Job) :
    (j.renewed i ref).gen = j.gen := by
  unfold Job.renewed; split <;> rfl

/-- A new reference leaves each job its slot. -/
theorem Search.resetRef_slots (q : Search) (i : SlotNo) (ref : Reference) :
    (q.resetRef i ref).jobs.map (·.slot) = q.jobs.map (·.slot) := by
  rw [Search.resetRef_jobs_renewed, List.map_map]
  exact List.map_congr_left fun j _ => j.renewed_slot i ref

theorem SearchQueueLaw.resetRef {s : State} (hs : SearchQueueLaw s) (i : SlotNo) (ref : Reference) :
    SearchQueueLaw { s with search := s.search.resetRef i ref } where
  once := (s.search.resetRef_slots i ref).symm ▸ hs.once
  exact k := by
    show (∃ j ∈ (s.search.resetRef i ref).jobs, j.slot = k) ↔ s.searchingAt k
    rw [← hs.exact k, Search.resetRef_jobs_renewed]
    simp
  gens j' hj' := by
    obtain ⟨j, hj, rfl⟩ := List.mem_map.mp (show j' ∈ s.search.jobs.map (Job.renewed i ref) from hj')
    rw [Job.renewed_gen, Job.renewed_slot]
    exact hs.gens j hj

theorem searchQueueLaw_invariant : ScheduleInvariant SearchQueueLaw where
  frame := by
    intro s t hs h
    obtain ⟨hslots, -, -, hjobs, -⟩ := State.schedule_eq_iff.mp h
    exact hs.of_parts hslots hjobs
  created := fun hs _ _ _ => hs.place _ _ _
  rewritten := fun hs _ _ => hs.place _ _ _
  freed := fun i hs => hs.freeSlot i
  sought := fun i ref hs => hs.resetRef i ref
  quota := fun _ _ hs _ _ => hs.of_parts rfl rfl
  looked := fun _ _ _ hs => hs.of_parts rfl rfl
  searched := fun _ hs => hs.of_parts rfl rfl
  taken := fun _ _ hs _ _ => hs.of_parts rfl rfl
  timeTaken := fun _ _ hs _ _ => hs.of_parts rfl rfl
  stepped := fun _ _ _ hs => hs.of_parts rfl rfl
  epochEnded := fun hs => hs.of_parts rfl rfl
  cold := fun _ _ _ _ _ _ => reset_searchQueueLaw.of_parts rfl rfl

end Sys2Proof.Machine
end

section
/-! PROOFS. Every step keeps the engine at the head of the Search Queue (R69), and so the two laws of the
search together (O7). -/

namespace Sys2Proof.Machine

/-! ### The engine as a job joins or is given a new reference -/

theorem Search.RunsHead.join {q : Search} (h : q.RunsHead) (j : Job) : (q.join j).RunsHead := by
  obtain ⟨jobs, engine⟩ := q
  cases engine with
  | paused => trivial
  | idle => exact Search.runsHead_takeUp (jobs ++ [j])
  | running i ph =>
    cases jobs with
    | nil => cases h
    | cons head rest => exact h

theorem Search.join_paused_iff {q : Search} {j : Job} :
    (q.join j).engine = .paused ↔ q.engine = .paused := by
  by_cases h : q.engine = .idle
  · rw [Search.join_engine_of_idle h, h]
    cases (q.join j).jobs <;> simp
  · rw [Search.join_engine_of_busy h]

theorem Search.RunsHead.resetRef {q : Search} (h : q.RunsHead) (i : SlotNo) (ref : Reference) :
    (q.resetRef i ref).RunsHead := by
  have hhead : (q.resetRef i ref).jobs.head?.map (·.slot) = q.jobs.head?.map (·.slot) := by
    rw [← List.head?_map, ← List.head?_map, Search.resetRef_slots]
  obtain ⟨jobs, engine⟩ := q
  cases engine with
  | paused => trivial
  | idle => cases (show jobs = [] from h); rfl
  | running r ph =>
    rw [Search.resetRef_eq]
    exact hhead.trans h

theorem Search.resetRef_paused_iff {q : Search} {i : SlotNo} {ref : Reference} :
    (q.resetRef i ref).engine = .paused ↔ q.engine = .paused := by
  rw [Search.resetRef_eq]
  cases q.engine <;> simp

/-! ### The law -/

/-- The engine runs the head of its queue and is PAUSED exactly while the port domain is held (R69). -/
structure Search.Follows (q : Search) (running : Bool) : Prop where
  head : q.RunsHead
  paused : q.engine = .paused ↔ running = false

/-- The engine law as a property of the search and the port-domain state alone. -/
def EngineFollows (s : State) : Prop := s.search.Follows s.standby.running

theorem engineLaw_iff {s : State} : EngineLaw s ↔ EngineFollows s := by
  suffices h : EngineLaw s ↔
      s.search.RunsHead ∧ (s.search.engine = .paused ↔ s.standby.running = false) from
    h.trans ⟨fun ⟨hhead, hpaused⟩ => ⟨hhead, hpaused⟩, fun hs => ⟨hs.head, hs.paused⟩⟩
  unfold EngineLaw Search.RunsHead
  cases s.search.engine <;> simp [and_comm]

namespace EngineFollows

variable {s t : State}

/-- The law over a search that runs its head and is PAUSED where it was. -/
theorem of_search (hs : EngineFollows s) (hrunning : t.standby.running = s.standby.running)
    (hhead : t.search.RunsHead) (hpaused : t.search.engine = .paused ↔ s.search.engine = .paused) :
    EngineFollows t :=
  ⟨hhead, by rw [hrunning, hpaused]; exact hs.paused⟩

/-! ### Moves of the Search Queue -/

theorem place (hs : EngineFollows s) (i : SlotNo) (e : Entry) (ref : Reference) :
    EngineFollows (s.place i e ref) := by
  have hrunning : (s.place i e ref).standby.running = s.standby.running := by rw [s.place_frame]
  have hleave := (hs.head).leave i
  refine hs.of_search hrunning ?_ ?_ <;> by_cases h : e.state = .searching
  · rw [State.place_search_of_searching h]; exact hleave.join _
  · rw [State.place_search_of_other h]; exact hleave
  · rw [State.place_search_of_searching h]; exact Search.join_paused_iff.trans Search.leave_paused_iff
  · rw [State.place_search_of_other h]; exact Search.leave_paused_iff

theorem freeSlot (hs : EngineFollows s) (i : SlotNo) : EngineFollows (s.freeSlot i) := by
  have hsearch : (s.freeSlot i).search = s.search.leave i := rfl
  refine hs.of_search rfl ?_ ?_ <;> rw [hsearch]
  · exact (hs.head).leave i
  · exact Search.leave_paused_iff

theorem resetRef (hs : EngineFollows s) (i : SlotNo) (ref : Reference) :
    EngineFollows { s with search := s.search.resetRef i ref } :=
  hs.of_search rfl ((hs.head).resetRef i ref) Search.resetRef_paused_iff

theorem releaseEntries (hs : EngineFollows s) (p : Port) : EngineFollows (s.releaseEntries p) :=
  State.releaseEntries_keeps (P := EngineFollows) (fun _ i ht => ht.freeSlot i) hs

/-! ### The port domain -/

/-- The start has the engine take up the head (R175). -/
theorem startDomain (s : State) (straps : Straps) : EngineFollows (s.startDomain straps) :=
  ⟨Search.runsHead_takeUp s.search.jobs, by
    show takeUp s.search.jobs = .paused ↔ true = false
    cases s.search.jobs <;> simp⟩

/-- The hold pauses the engine (R173). -/
theorem holdDomain (h : s.standby.running = false) : EngineFollows s.holdDomain := by
  obtain ⟨-, -, -, -, hstandby, -⟩ := s.holdDomain_retained
  exact ⟨trivial, iff_of_true rfl (by rw [hstandby]; exact h)⟩

/-- A change of an input pauses the engine with a hold, and has it take up the head with a start. -/
theorem inputs (hs : EngineFollows s) (pf rst good : Bool) (straps : Straps) :
    EngineFollows (s.inputs pf rst good straps) := by
  rcases s.inputs_cases pf rst good straps with ⟨-, -, h⟩ | ⟨-, hheld, h⟩ | ⟨-, -, h⟩ | ⟨-, -, h⟩ <;> rw [h]
  · exact holdDomain rfl
  · exact of_search (s := s) hs hheld.symm (hs.head) Iff.rfl
  · exact hs
  · exact startDomain _ straps

/-! ### Claims and gates -/

theorem endLease (hs : EngineFollows s) (cause : Option LeaseCause) : EngineFollows (s.endLease cause) := by
  rw [s.endLease_frame]
  exact hs

theorem settleSessionEnds (hs : EngineFollows s) (p : Port) : EngineFollows (s.settleSessionEnds p) := by
  rw [s.settleSessionEnds_frame]
  exact hs

theorem takeLeaseEnd (hs : EngineFollows s) (m : LeaseEndMsg) : EngineFollows (s.takeLeaseEnd m) := by
  rw [s.takeLeaseEnd_frame]
  exact hs

theorem settleLeaseEnds (hs : EngineFollows s) : EngineFollows s.settleLeaseEnds :=
  State.settleLeaseEnds_keeps (fun _ _ h => h) (fun _ m h => h.takeLeaseEnd m) hs

theorem onPort (t : State) (p : Port) (f : PortCtl → PortCtl) (h : EngineFollows t) :
    EngineFollows (t.onPort p f) := h

theorem request {f : Phase} {p : Port} {h : Header} {body : List Byte} {lengthOk gated : Bool}
    {act : State → State} (hs : EngineFollows s) (hact : ∀ t, EngineFollows t → EngineFollows (act t)) :
    Answers EngineFollows (.next (Machine.request f p h body lengthOk gated act s)) :=
  answers_request (fun t => onPort t p) hact hs

theorem leaseGate {p : Port} {act : State → State} (hact : ∀ t, EngineFollows t → EngineFollows (act t))
    (hs : EngineFollows s) : EngineFollows (leaseGate p act s) :=
  leaseGate_keeps (fun t => onPort t p) (fun h => h.settleSessionEnds p) hact hs

theorem throughGate {p : Port} {act : State → State} (hact : ∀ t, EngineFollows t → EngineFollows (act t))
    (hs : EngineFollows s) : EngineFollows (throughGate p act s) :=
  leaseGate (fun _ ht => hact _ ht.settleLeaseEnds) hs

/-! ### The acts of requests -/

theorem openAct {p : Port} {body : List Byte} (hs : EngineFollows s) : EngineFollows (openAct p body s) := by
  unfold Machine.openAct
  split
  · exact hs
  · dsimp only
    split <;> exact hs

theorem kickAct {p : Port} {h : Header} {body : List Byte} (hs : EngineFollows s) :
    EngineFollows (kickAct p h body s) := by
  unfold Machine.kickAct
  split
  · exact hs
  · split
    · exact hs
    · split <;> exact hs

theorem acquireAct {p : Port} {body : List Byte} (hs : EngineFollows s) :
    EngineFollows (acquireAct p body s) := by
  unfold Machine.acquireAct
  have ht := hs.settleSessionEnds p
  dsimp only
  split
  · exact ht
  · split
    · exact ht
    · split <;> exact ht

theorem breakLeaseAct {p : Port} (hs : EngineFollows s) : EngineFollows (breakLeaseAct p s) := by
  unfold Machine.breakLeaseAct
  have ht := hs.settleSessionEnds p
  dsimp only
  split
  · exact ht
  · split
    · exact ht
    · exact ht.endLease _

theorem renewAct {p : Port} {body : List Byte} (hs : EngineFollows s) : EngineFollows (renewAct p body s) := by
  unfold Machine.renewAct
  dsimp only
  split <;> exact hs

theorem setTrimAct {p : Port} {body : List Byte} (hs : EngineFollows s) :
    EngineFollows (setTrimAct p body s) := by
  unfold Machine.setTrimAct
  dsimp only
  split <;> exact hs

theorem commitAct {p : Port} {body : List Byte} (hs : EngineFollows s) : EngineFollows (commitAct p body s) := by
  unfold Machine.commitAct
  split
  · exact hs
  · rename_i mode staged _
    cases mode with
    | slew =>
      unfold commitEffect
      dsimp only
      split <;> exact hs
    | _ => exact hs

theorem createAct {p : Port} {body : List Byte} (hs : EngineFollows s) : EngineFollows (createAct p body s) := by
  refine whenNormal_keeps (fun t => onPort t p) (fun _ => ?_) hs
  split
  · exact hs
  · split
    · exact hs
    · split
      · exact hs
      · exact hs.place _ _ _

theorem armEntry {p : Port} {body : List Byte} {n : Handle} {e : Entry} (hs : EngineFollows s) :
    EngineFollows (armEntry p body n e s) := by
  unfold Machine.armEntry
  split
  · exact hs
  · split
    · exact hs
    · split
      · exact hs
      · dsimp only
        split
        · exact hs.place _ _ _
        · exact hs

theorem suspendEntry {p : Port} {n : Handle} {e : Entry} (hs : EngineFollows s) :
    EngineFollows (suspendEntry p n e s) := by
  unfold Machine.suspendEntry
  split
  · exact hs
  · exact hs.place _ _ _

theorem resumeEntry {p : Port} {n : Handle} {e : Entry} (hs : EngineFollows s) :
    EngineFollows (resumeEntry p n e s) := by
  unfold Machine.resumeEntry
  split
  · exact hs
  · split
    · exact hs
    · exact hs.place _ _ _

theorem queryEntry {p : Port} {body : List Byte} {n : Handle} {e : Entry} (hs : EngineFollows s) :
    EngineFollows (queryEntry p body n e s) := by
  unfold Machine.queryEntry
  split <;> exact hs

theorem listAct {p : Port} {body : List Byte} (hs : EngineFollows s) : EngineFollows (listAct p body s) := by
  refine whenNormal_keeps (fun t => onPort t p) (fun _ => ?_) hs
  dsimp only
  split
  · exact hs
  · split <;> exact hs

theorem setQuotaAct {p : Port} {body : List Byte} (hs : EngineFollows s) :
    EngineFollows (setQuotaAct p body s) := by
  refine whenNormal_keeps (fun t => onPort t p) (fun _ => ?_) hs
  dsimp only
  split
  · exact hs
  · split
    · exact hs
    · split
      · exact hs
      · split
        · exact hs
        · split <;> exact hs

theorem purgeEntry {p : Port} {n : Handle} {e : Entry} (hs : EngineFollows s) :
    EngineFollows (purgeEntry p n e s) := by
  unfold Machine.purgeEntry
  split
  · exact hs
  · exact freeSlot (s := s.handEnded n e .purged) hs n.slot

/-- A request of an entry's owner whose act on the entry keeps the law. -/
theorem asOwner {p : Port} {body : List Byte} {act : Handle → Entry → State → State}
    (hact : ∀ n e, EngineFollows s → EngineFollows (act n e s)) (hs : EngineFollows s) :
    EngineFollows (asOwner p body act s) :=
  asOwner_keeps (fun t => onPort t p) hact hs

/-- A request with a current handle whose act on the entry keeps the law. -/
theorem whenCurrent {p : Port} {body : List Byte} {act : Handle → Entry → State → State}
    (hact : ∀ n e, EngineFollows s → EngineFollows (act n e s)) (hs : EngineFollows s) :
    EngineFollows (whenNormal p (withCurrent p body act) s) :=
  whenNormal_keeps (fun t => onPort t p) (withCurrent_keeps (fun t => onPort t p) hact) hs

/-! ### Events -/

theorem kickVerdict {k : KickMsg} {body : List Byte} (hs : EngineFollows s) :
    EngineFollows (kickVerdict k body s) := by
  unfold Machine.kickVerdict
  split <;> exact hs

theorem portSecond {p : Port} (hs : EngineFollows s) : EngineFollows (portSecond p s) := by
  unfold Machine.portSecond
  dsimp only
  split
  · split <;> exact hs
  · exact hs

theorem leaseSecond (hs : EngineFollows s) : EngineFollows (leaseSecond s) := by
  unfold Machine.leaseSecond
  split
  · split
    · exact hs
    · split
      · exact hs.endLease _
      · exact hs
  · exact hs

theorem takeSessionEnd (hs : EngineFollows s) (p : Port) : EngineFollows (s.takeSessionEnd p) := by
  unfold State.takeSessionEnd
  split
  · exact hs.endLease _
  · exact hs

theorem takeAck {p : Port} {seq : Fin 16} (hs : EngineFollows s) : EngineFollows (takeAck p seq s) := by
  unfold Machine.takeAck
  split
  · split <;> exact hs
  · exact hs

theorem placeFor_foldl {content : Content} {set : PortSet} (l : List Port) (hs : EngineFollows s) :
    EngineFollows (l.foldl (placeFor content set) s) := by
  induction l generalizing s with
  | nil => exact hs
  | cons p rest ih =>
    refine ih ?_
    unfold placeFor
    split <;> exact hs

theorem sampleRdy {p : Port} {rdy : Bool} (hs : EngineFollows s) : EngineFollows (s.sampleRdy p rdy) := by
  unfold State.sampleRdy
  split <;> exact hs

theorem serve {p : Port} {h : Header} {body : List Byte} {lengthOk gated : Bool}
    {act : State → State} (hs : EngineFollows s) (hact : ∀ t, EngineFollows t → EngineFollows (act t)) :
    EngineFollows (serve p h body lengthOk gated act s) :=
  serve_keeps (fun t => onPort t p) hact hs

theorem lookAt {m : LookMsg} (hs : EngineFollows s) : EngineFollows (lookAt m s) := by
  unfold Machine.lookAt
  dsimp only
  split <;> exact hs

theorem applyFiring {c : FiringClaim} {e : Entry} (hs : EngineFollows s) :
    EngineFollows (applyFiring c e s) := by
  have ht := hs.place c.handle.slot (e.fired c) c.next.reference
  unfold Machine.applyFiring State.handWake
  dsimp only
  split <;> split <;> exact ht

theorem applyResult {c : ResultClaim} {e : Entry} (hs : EngineFollows s) :
    EngineFollows (applyResult c e s) := by
  unfold Machine.applyResult
  split <;> exact hs.place _ _ _

theorem visitEntry {r : Rescan} {i : SlotNo} {e : Entry} (hs : EngineFollows s) :
    EngineFollows (visitEntry r i e s) := by
  rcases visitEntry_cases r i e s with ⟨st, ref, h⟩ | h | h <;> rw [h]
  · exact hs.place _ _ _
  · exact hs.resetRef _ _
  · exact hs

theorem releases (l : List Port) (hs : EngineFollows s) : EngineFollows (l.foldl State.releaseEntries s) := by
  induction l generalizing s with
  | nil => exact hs
  | cons p rest ih =>
    rw [List.foldl_cons]
    exact ih (hs.releaseEntries p)

theorem moveInstant {a : Advance} (hs : EngineFollows s) : EngineFollows (moveInstant a s) := by
  unfold Machine.moveInstant
  dsimp only
  cases a.done <;> (split <;> exact hs)

theorem takeAdvance (hs : EngineFollows s) : EngineFollows (takeAdvance s) := by
  rcases takeAdvance_cases s with ⟨second, p, -, -, e⟩ | ⟨-, -, -, e⟩ | ⟨-, e⟩ <;> rw [e]
  · exact hs
  · exact hs
  · exact hs.moveInstant

theorem countAdvance (hs : EngineFollows s) : EngineFollows (countAdvance s) := by
  unfold Machine.countAdvance
  dsimp only
  split <;> exact hs

/-- The run of the head goes on to DELIVERED (R70). -/
theorem searchRunComplete (hs : EngineFollows s) : Answers EngineFollows (execSearchRunComplete s) := by
  refine answers_next.mpr ?_
  split
  · rename_i i hrun
    split
    · exact hs
    · have hhead := hs.head
      unfold Search.RunsHead at hhead
      rw [hrun] at hhead
      exact hs.of_search rfl hhead (by simp [hrun])
  · exact hs

theorem cold (pending : List Instr) (freeIndex : Nat) (pf rst vddGood : Bool) (pins : Straps) :
    EngineFollows (State.cold pending freeIndex pf rst vddGood pins) :=
  ⟨trivial, iff_of_true rfl rfl⟩

/-! ### Every command and every step -/

theorem exec (c : Instr) (s : State) (hs : EngineFollows s) : Answers EngineFollows (exec c s) := by
  cases c with
  | openReq p h a f => exact hs.request fun _ ht => ht.openAct
  | closeReq p h a f => exact hs.request fun _ ht => ht
  | pingReq p h a f => exact hs.request fun _ ht => ht
  | statusReq p h a f => exact hs.request fun _ ht => ht
  | resyncReq p h a f => exact hs.request fun _ ht => ht
  | readTime p h a f => exact hs.request fun _ ht => ht
  | stageTime p h a f => exact hs.request fun _ ht => ht
  | commitTime p h a f => exact hs.request fun _ => throughGate fun _ => commitAct
  | cancelCommit p h a f => exact hs.request fun _ => throughGate fun _ ht => ht
  | readTrim p h a f => exact hs.request fun _ ht => ht
  | setTrim p h a f => exact hs.request fun _ => throughGate fun _ => setTrimAct
  | acquire p h a f => exact hs.request fun _ ht => ht.acquireAct
  | renew p h a f => exact hs.request fun _ => leaseGate fun _ => renewAct
  | release p h a f => exact hs.request fun _ => leaseGate fun _ ht => ht.endLease none
  | create p h a f => exact hs.request fun _ ht => ht.createAct
  | arm p h a f => exact hs.request fun _ => asOwner fun _ _ => armEntry
  | suspend p h a f => exact hs.request fun _ => asOwner fun _ _ => suspendEntry
  | resume p h a f => exact hs.request fun _ => asOwner fun _ _ => resumeEntry
  | delete p h a f => exact hs.request fun _ => asOwner fun n _ ht => ht.freeSlot n.slot
  | query p h a f => exact hs.request fun _ => whenCurrent fun _ _ => queryEntry
  | list p h a f => exact hs.request fun _ ht => ht.listAct
  | kick p h a f => exact hs.request fun _ ht => ht.kickAct
  | kickAtNamedPort q =>
    refine answers_next.mpr ?_
    split
    · exact hs
    · dsimp only
      split <;> exact kickVerdict hs
  | setQuota p h a f => exact hs.request fun _ ht => ht.setQuotaAct
  | breakLease p h a f => exact hs.request fun _ ht => ht.breakLeaseAct
  | purge p h a f => exact hs.request fun _ => whenCurrent fun _ _ => purgeEntry
  | unknownRequest p h body =>
    refine answers_next.mpr ?_
    split
    · exact hs.serve fun _ ht => ht
    · exact hs
  | overrun p h body =>
    refine answers_next.mpr ?_
    split
    · exact hs.serve fun _ ht => ht
    · exact hs
  | ack p h body =>
    refine answers_next.mpr ?_
    split
    · exact hs
    · split
      · exact hs
      · exact takeAck hs
  | unusedFrame p cls h body =>
    refine answers_next.mpr ?_
    split
    · exact hs
    · split <;> exact hs
  | receiveError p chars => refine answers_next.mpr ?_; split <;> exact hs
  | gap p =>
    refine answers_next.mpr ?_
    split
    · split <;> exact hs
    · exact hs
  | breakLine p =>
    refine answers_next.mpr ?_
    split
    · dsimp only
      split <;> exact hs
    · exact hs
  | responseFrameStart p rdy => refine answers_next.mpr ?_; split <;> exact sampleRdy hs
  | noticeFrameStart p rdy => refine answers_next.mpr ?_; split <;> exact sampleRdy hs
  | resendFrameStart p rdy => refine answers_next.mpr ?_; split <;> exact sampleRdy hs
  | endOfService p => refine answers_next.mpr ?_; split <;> exact hs
  | tuAdvance => exact answers_next.mpr hs.countAdvance.takeAdvance
  | trimWindowStart => exact answers_next.mpr hs
  | oscillatorSecond sink =>
    refine answers_next.mpr ?_
    cases sink with
    | lease => exact leaseSecond hs
    | port p => exact portSecond hs
  | leaseExpiry =>
    refine answers_next.mpr ?_
    split
    · exact leaseSecond hs
    · exact hs
  | keepaliveTimeout p =>
    refine answers_next.mpr ?_
    split
    · exact portSecond hs
    · exact hs
  | tenMsTick => refine answers_next.mpr ?_; split <;> exact hs
  | ackTimeout p =>
    refine answers_next.mpr ?_
    split
    · split <;> exact hs
    · exact hs
  | look src =>
    refine answers_next.mpr ?_
    split
    · exact hs
    · exact lookAt hs
  | firingClaim =>
    refine answers_next.mpr ?_
    split
    · exact hs
    · dsimp only
      split
      · exact hs
      · split
        · exact applyFiring hs
        · exact hs
  | wakeRequest => refine answers_next.mpr ?_; split <;> exact hs
  | noticeTaken src =>
    refine answers_next.mpr ?_
    split
    · exact hs
    · exact placeFor_foldl _ hs
  | searchRunComplete => exact hs.searchRunComplete
  | resultClaim =>
    refine answers_next.mpr ?_
    split
    · exact hs
    · dsimp only
      split
      · exact hs
      · split
        · exact applyResult hs
        · exact hs
  | stepClaim =>
    refine answers_next.mpr ?_
    split
    · exact hs
    · split
      · exact hs
      · split <;> exact hs
  | rescanVisit =>
    refine answers_next.mpr ?_
    split
    · exact hs
    · split
      · dsimp only
        split
        · exact hs.visitEntry
        · exact hs
      · exact hs
  | rescanEnd =>
    refine answers_next.mpr ?_
    split
    · exact hs
    · split
      · exact releases (s := s.looksLost) s.table.heldReleases hs
      · exact hs
  | epochEndClaim =>
    refine answers_next.mpr ?_
    split
    · exact hs
    · split
      · exact hs
      · refine epochEnd_keeps (P := EngineFollows) (fun t i e _ _ ht => ?_) ?_ _
        · exact ht.place i { e with state := .spent .epoch } .pastEpoch
        · exact hs
  | leaseEndClaim =>
    refine answers_next.mpr ?_
    split
    · exact hs
    · refine takeLeaseEnd ?_ _
      exact hs
  | sessionEndClaim p =>
    refine answers_next.mpr ?_
    split
    · refine takeSessionEnd ?_ p
      exact hs
    · exact hs
  | releaseClaim p =>
    refine answers_next.mpr ?_
    split
    · dsimp only
      split
      · refine releaseEntries ?_ p
        exact hs
      · exact hs
    · exact hs
  | pf asserted straps point =>
    refine answers_next.mpr ?_
    cases point with
    | filtered =>
      refine inputs ?_ _ _ _ _
      exact hs
    | pin => exact hs
  | rst asserted straps point =>
    refine answers_next.mpr ?_
    cases point with
    | filtered =>
      refine inputs ?_ _ _ _ _
      exact hs
    | pin => exact hs
  | vddLoss => exact answers_next.mpr (hs.inputs _ _ _ _)
  | vddGood straps => exact answers_next.mpr (hs.inputs _ _ _ straps)
  | coldStart pf rst good =>
    refine answers_next.mpr ?_
    split
    · split
      · exact cold _ _ _ _ _ _
      · exact startDomain _ _
    · exact cold _ _ _ _ _ _
  | noticeFrameEnd p => refine answers_next.mpr ?_; split <;> exact hs
  | frameHeader p data => refine answers_next.mpr ?_; split <;> exact hs
  | returnToMarking p => refine answers_next.mpr ?_; split <;> exact hs

theorem keptByStep : KeptByStep EngineFollows := keptByStep_of_exec (fun _ _ hs => hs) exec fun _ hs => hs

end EngineFollows

theorem engineLaw_keptByStep : KeptByStep EngineLaw := fun s s' hs h =>
  engineLaw_iff.mpr (EngineFollows.keptByStep s s' (engineLaw_iff.mp hs) h)

/-- Settles O7: an entry's job joins and leaves the queue only as the entry is written or freed
(`SearchQueueLaw.place`, `SearchQueueLaw.freeSlot`), and whatever moves the queue or the port domain leaves
the engine at the head (`EngineFollows.exec`). -/
theorem searchLawsKept : Obligations.SearchLawsKept :=
  searchQueueLaw_invariant.keptByStep.and engineLaw_keptByStep

end Sys2Proof.Machine
end

section
/-! PROOFS. A search finds the earliest match (O47). -/

namespace Sys2Proof.Machine

/-! ### The least number of a property -/

/-- An answer is the least number with a property, or says that there is none. -/
def FirstOf (P : Nat → Prop) : Option Nat → Prop
  | none => ∀ x, ¬P x
  | some x => P x ∧ ∀ y, P y → x ≤ y

section First

variable {P Q : Nat → Prop} {o o' : Option Nat}

theorem FirstOf.congr (h : FirstOf P o) (hPQ : ∀ x, P x ↔ Q x) : FirstOf Q o := by
  rwa [show Q = P from funext fun x => propext (hPQ x).symm]

/-- The answer is the given number exactly where that number is the least. -/
theorem FirstOf.eq_some_iff (h : FirstOf P o) (x : Nat) : o = some x ↔ P x ∧ ∀ y, P y → x ≤ y := by
  cases o with
  | none => exact ⟨nofun, fun hx => absurd hx.1 (h x)⟩
  | some z =>
    refine ⟨fun hz => Option.some.inj hz ▸ h, fun hx => ?_⟩
    exact congrArg some (Nat.le_antisymm (h.2 x hx.1) (hx.2 z h.1))

/-- A number is the least one equal to it. -/
theorem firstOf_eq (n : Nat) : FirstOf (· = n) (some n) := ⟨rfl, fun _ h => h.ge⟩

theorem firstOf_empty (h : ∀ x, ¬P x) : FirstOf P none := h

/-- Under a condition the answer stands, and otherwise there is none. -/
theorem FirstOf.guard {c : Bool} (h : FirstOf P o) :
    FirstOf (fun x => c = true ∧ P x) (if c then o else none) := by
  cases c with
  | false => exact fun x hx => by cases hx.1
  | true => exact h.congr fun x => (and_iff_right rfl).symm

/-- The least number of two properties, all numbers of the one below those of the other. -/
theorem FirstOf.or (h : FirstOf P o) (h' : FirstOf Q o') (hlt : ∀ x y, P x → Q y → x ≤ y) :
    FirstOf (fun x => P x ∨ Q x) (o.or o') := by
  cases o with
  | none => exact h'.congr fun x => (or_iff_right (h x)).symm
  | some x => exact ⟨.inl h.1, fun y hy => hy.elim (h.2 y) (hlt x y h.1)⟩

/-- An ascending function of the numbers is tried in ascending order. -/
theorem FirstOf.map {f : Nat → Nat} (hf : ∀ x y, x ≤ y → f x ≤ f y) (h : FirstOf P o) :
    FirstOf (fun y => ∃ x, P x ∧ y = f x) (o.map f) := by
  cases o with
  | none => exact fun _ ⟨x, hx, _⟩ => h x hx
  | some x =>
    refine ⟨⟨x, h.1, rfl⟩, ?_⟩
    rintro _ ⟨y, hy, rfl⟩
    exact hf x y (h.2 y hy)

/-- Blocks of numbers, each with its least one, tried in ascending order. -/
theorem firstOf_findSome? {R : Nat → Nat → Prop} {f : Nat → Option Nat} (n : Nat)
    (h : ∀ a, FirstOf (R a) (f a)) (hlt : ∀ a b x y, a < b → R a x → R b y → x ≤ y) :
    FirstOf (fun x => ∃ a, a < n ∧ R a x) ((List.range n).findSome? f) := by
  induction n with
  | zero => exact fun x ⟨a, ha, _⟩ => absurd ha (Nat.not_lt_zero a)
  | succ n ih =>
    rw [List.range_succ, List.findSome?_append]
    have hlast : List.findSome? f [n] = f n := by cases hn : f n <;> simp [hn]
    rw [hlast]
    refine (ih.or (h n) fun x y ⟨a, ha, hx⟩ hy => hlt a n x y ha hx hy).congr fun x => ?_
    constructor
    · rintro (⟨a, ha, hx⟩ | hx)
      · exact ⟨a, by omega, hx⟩
      · exact ⟨n, by omega, hx⟩
    · rintro ⟨a, ha, hx⟩
      rcases Nat.lt_succ_iff_lt_or_eq.mp ha with ha | rfl
      · exact .inl ⟨a, ha, hx⟩
      · exact .inr hx

end First

/-! ### The earliest second of a day -/

/-- A second of a day at which the time fields of a pattern hold, at or after another. -/
def Pattern.timeFrom (p : Pattern) (t0 t : Nat) : Prop :=
  t < 86400 ∧ t0 ≤ t ∧ p.matchesTime t = true

theorem Pattern.matchesTime_iff (p : Pattern) (t : Nat) : p.matchesTime t = true ↔
    fieldMatches p.hour (t / 3600) = true ∧ fieldMatches p.minute (t / 60 % 60) = true ∧
      fieldMatches p.second (t % 60) = true := by
  simp [Pattern.matchesTime, and_assoc]

/-- The hours, minutes and seconds are tried in ascending order (R67). -/
theorem Pattern.firstTime_firstOf (p : Pattern) (t0 : Nat) : FirstOf (p.timeFrom t0) (p.firstTime t0) := by
  have hseconds (h m : Nat) := firstOf_findSome? 60
    (fun s => (firstOf_eq (h * 3600 + m * 60 + s)).guard
      (c := fieldMatches p.second s && decide (t0 ≤ h * 3600 + m * 60 + s)))
    (fun a b x y hab hx hy => by omega)
  have hminutes (h : Nat) := firstOf_findSome? 60
    (fun m => (hseconds h m).guard
      (c := fieldMatches p.minute m && decide (t0 ≤ h * 3600 + m * 60 + 59)))
    (by rintro a b _ _ hab ⟨-, s, hs, -, rfl⟩ ⟨-, s', hs', -, rfl⟩; omega)
  have hhours := firstOf_findSome? 24
    (fun h => (hminutes h).guard (c := fieldMatches p.hour h && decide (t0 ≤ h * 3600 + 3599)))
    (by rintro a b _ _ hab ⟨-, m, hm, -, s, hs, -, rfl⟩ ⟨-, m', hm', -, s', hs', -, rfl⟩; omega)
  refine hhours.congr fun t => ?_
  simp only [Bool.and_eq_true, decide_eq_true_eq, Pattern.timeFrom, Pattern.matchesTime_iff]
  constructor
  · rintro ⟨h, hh, ⟨hhour, -⟩, m, hm, ⟨hminute, -⟩, s, hs, ⟨hsecond, ht0⟩, rfl⟩
    rw [show (h * 3600 + m * 60 + s) / 3600 = h by omega,
      show (h * 3600 + m * 60 + s) / 60 % 60 = m by omega,
      show (h * 3600 + m * 60 + s) % 60 = s by omega]
    exact ⟨by omega, ht0, hhour, hminute, hsecond⟩
  · rintro ⟨hday, ht0, hhour, hminute, hsecond⟩
    exact ⟨t / 3600, by omega, ⟨hhour, by omega⟩, t / 60 % 60, by omega, ⟨hminute, by omega⟩, t % 60,
      by omega, ⟨hsecond, by omega⟩, by omega⟩

/-! ### The earliest second from a day on -/

/-- A pattern matches a count that lies in a span. -/
def Pattern.matchIn (p : Pattern) (lo hi x : Nat) : Prop :=
  p.matchesInstant x = true ∧ lo ≤ x ∧ x < hi

/-- A match on a day is a matching second of a day whose date matches. -/
theorem Pattern.matchIn_day (p : Pattern) {d t0 : Nat} (x : Nat) :
    p.matchIn ((d * 86400 + t0) * 256) ((d + 1) * Config.tuPerDay) x ↔
      ∃ t, (p.matchesDay d = true ∧ p.timeFrom t0 t) ∧ x = (d * 86400 + t) * 256 := by
  unfold Pattern.matchIn Pattern.timeFrom Pattern.matchesInstant Config.tuPerDay
  simp only [Bool.and_eq_true, beq_iff_eq]
  constructor
  · rintro ⟨⟨⟨hwhole, hdate⟩, htime⟩, hlo, hhi⟩
    rw [show x / 22118400 = d by omega] at hdate
    exact ⟨x / 256 % 86400, ⟨hdate, by omega, by omega, htime⟩, by omega⟩
  · rintro ⟨t, ⟨hdate, hday, ht0, htime⟩, rfl⟩
    rw [show (d * 86400 + t) * 256 / 22118400 = d by omega,
      show (d * 86400 + t) * 256 / 256 % 86400 = t by omega]
    exact ⟨⟨⟨by omega, hdate⟩, htime⟩, by omega, by omega⟩

/-- The days are tried in ascending order, the first of them from a second of it on. -/
theorem Pattern.firstFrom_firstOf (p : Pattern) (fuel d t0 : Nat) (ht0 : t0 < 86400) :
    FirstOf (p.matchIn ((d * 86400 + t0) * 256) ((d + fuel) * Config.tuPerDay))
      (p.firstFrom fuel d t0) := by
  induction fuel generalizing d t0 with
  | zero => exact firstOf_empty fun x ⟨_, hlo, hhi⟩ => by unfold Config.tuPerDay at hhi; omega
  | succ fuel ih =>
    have hday := (((p.firstTime_firstOf t0).guard (c := p.matchesDay d)).map
      (f := fun t => (d * 86400 + t) * 256) (by intro x y h; omega)).congr
      fun x => (p.matchIn_day x).symm
    have heq : p.firstFrom (fuel + 1) d t0 =
        ((if p.matchesDay d then p.firstTime t0 else none).map fun t => (d * 86400 + t) * 256).or
          (p.firstFrom fuel (d + 1) 0) := by
      rw [Pattern.firstFrom]
      cases (if p.matchesDay d then p.firstTime t0 else none) <;> rfl
    rw [heq]
    refine (hday.or (ih (d + 1) 0 (by decide)) fun x y ⟨_, _, hx⟩ ⟨_, hy, _⟩ => ?_).congr fun x => ?_
    · unfold Config.tuPerDay at hx
      omega
    · unfold Pattern.matchIn Config.tuPerDay
      rw [← and_or_left]
      exact and_congr_right fun _ => by omega

/-! ### The search -/

/-- A second that a search may give: a match at or after the reference, no more than 1,461 days past it
and within the epoch (R67). -/
def Pattern.hit (p : Pattern) (f x : Nat) : Prop :=
  p.matchesInstant x = true ∧ f ≤ x ∧ x ≤ f + Config.searchSpan ∧ x ≤ Config.lastSecond

/-- The search gives the earliest of them. -/
theorem searchResult_firstOf (p : Pattern) {f : Nat} (hwhole : f % 256 = 0) :
    FirstOf (p.hit f) (searchResult p (.second f)) := by
  have hfirst := p.firstFrom_firstOf 1462 (f / Config.tuPerDay) (f / 256 % 86400)
    (Nat.mod_lt _ (by decide))
  have hlo : (f / Config.tuPerDay * 86400 + f / 256 % 86400) * 256 = f := by
    unfold Config.tuPerDay; omega
  have hspan : f + Config.searchSpan < (f / Config.tuPerDay + 1462) * Config.tuPerDay := by
    unfold Config.tuPerDay Config.searchSpan; omega
  rw [hlo] at hfirst
  unfold searchResult
  dsimp only
  generalize p.firstFrom 1462 (f / Config.tuPerDay) (f / 256 % 86400) = o at hfirst ⊢
  have hmatch {x : Nat} (hx : p.hit f x) :
      p.matchIn f ((f / Config.tuPerDay + 1462) * Config.tuPerDay) x := by
    obtain ⟨hm, hf, hle, -⟩ := hx
    exact ⟨hm, hf, hle.trans_lt hspan⟩
  cases o with
  | none => exact firstOf_empty fun x hx => hfirst x (hmatch hx)
  | some x =>
    obtain ⟨⟨hm, hf, -⟩, hleast⟩ := hfirst
    dsimp only
    split
    · rename_i hin
      exact ⟨⟨hm, hf, hin⟩, fun y hy => hleast y (hmatch hy)⟩
    · rename_i hout
      refine firstOf_empty fun y hy => hout ?_
      have hxy := hleast y (hmatch hy)
      obtain ⟨-, -, hle, hlast⟩ := hy
      exact ⟨hxy.trans hle, hxy.trans hlast⟩

/-! ### The fields of the calendar view -/

theorem fieldMatches_iff {field : Option Nat} {value : Nat} :
    fieldMatches field value = true ↔ field = none ∨ field = some value := by
  cases field <;> simp [fieldMatches]

/-- A pattern matches a whole second of the epoch where each field is ANY or that of its calendar view. -/
theorem Pattern.matchesInstant_iff (p : Pattern) {x : Nat} (hx : x ≤ Config.lastInstant) :
    p.matchesInstant x = true ↔ x % 256 = 0 ∧
      fieldMatches p.month (calendarView x).month = true ∧ fieldMatches p.day (calendarView x).day = true ∧
      fieldMatches p.weekday (calendarView x).weekday = true ∧
      fieldMatches p.hour (calendarView x).hour = true ∧
      fieldMatches p.minute (calendarView x).minute = true ∧
      fieldMatches p.second (calendarView x).second = true := by
  have hdate : p.matchesDay (x / Config.tuPerDay) = (fieldMatches p.month (calendarView x).month &&
      fieldMatches p.day (calendarView x).day && fieldMatches p.weekday (calendarView x).weekday) := by
    rw [Calendar.weekday, calendarView_days hx]
    rfl
  have htime : p.matchesTime (x / 256 % 86400) = (fieldMatches p.hour (calendarView x).hour &&
      fieldMatches p.minute (calendarView x).minute &&
      fieldMatches p.second (calendarView x).second) := rfl
  unfold Pattern.matchesInstant
  rw [hdate, htime]
  simp only [Bool.and_eq_true, beq_iff_eq, and_assoc]

/-- Settles O47: the search gives the least second it may give (`searchResult_firstOf`), which is a
match by the fields of its calendar view (`Pattern.matchesInstant_iff`). -/
theorem searchFindsEarliestMatch : Obligations.SearchFindsEarliestMatch := by
  intro p f hwhole _ agrees hit
  have hhit (x : Nat) : p.hit f x ↔ hit x := by
    unfold Pattern.hit
    constructor
    · rintro ⟨hm, hf, hspan, hlast⟩
      obtain ⟨h256, hfields⟩ := (p.matchesInstant_iff (hlast.trans lastSecond_le_lastInstant)).mp hm
      simp only [fieldMatches_iff] at hfields
      exact ⟨h256, hf, hspan, hlast, hfields⟩
    · rintro ⟨h256, hf, hspan, hlast, hfields⟩
      refine ⟨(p.matchesInstant_iff (hlast.trans lastSecond_le_lastInstant)).mpr ⟨h256, ?_⟩, hf, hspan, hlast⟩
      simp only [fieldMatches_iff]
      exact hfields
  exact ⟨((searchResult_firstOf p hwhole).congr hhit).eq_some_iff, rfl⟩

end Sys2Proof.Machine
end

section
/-! PROOFS. The search run and its result (O48). -/

namespace Sys2Proof.Machine

section Run

variable {s : State}

/-- The result of a MATCH entry's job is that of its pattern's search. -/
theorem jobResult_of_calendar {j : Job} {e : Entry} {p : Pattern} (he : s.entry j.slot = some e)
    (hp : e.plan = .calendar p) : jobResult s j = ⟨j.slot, j.gen, j.ref, searchResult p j.ref⟩ := by
  unfold jobResult
  simp only [he, hp]

/-- A completed run of the head job hands its result on (R70, R71). -/
theorem execSearchRunComplete_of_head {j : Job} {rest : List Job}
    (hrun : s.search.engine = .running j.slot .searching) (hjobs : s.search.jobs = j :: rest) :
    execSearchRunComplete s = .next { s with
      search := { s.search with engine := .running j.slot .delivered }
      transit := { s.transit with results := s.transit.results ++ [jobResult s j] } } := by
  have hfind : s.search.jobs.find? (·.slot == j.slot) = some j := by simp [hjobs]
  unfold execSearchRunComplete
  simp only [hrun, hfind]

end Run

section Claim

variable {s : State} {c : ResultClaim} {rest : List ResultClaim} {e : Entry}

/-- The state once the oldest result claim has been taken. -/
def State.resultTaken (s : State) (rest : List ResultClaim) : State :=
  { s with transit := { s.transit with results := rest } }

/-- A result claim is applied where its handle is current, the entry SEARCHING and its job of the claim's
reference (R71). -/
theorem execResultClaim_of_fits (hr : s.transit.results = c :: rest)
    (he : s.current ⟨c.slot, c.gen⟩ = some e) (hs : e.state = .searching)
    (href : s.reference c.slot = some c.ref) :
    execResultClaim s = .next (applyResult c e (s.resultTaken rest)) := by
  unfold execResultClaim
  rw [hr]
  dsimp only
  rw [show State.current { s with transit := { s.transit with results := rest } } ⟨c.slot, c.gen⟩ = some e
    from he]
  exact congrArg Host.Outcome.next (if_pos ⟨hs, href⟩)

/-- Every other result claim is discarded (R71). -/
theorem execResultClaim_of_not_fits (hr : s.transit.results = c :: rest)
    (h : ∀ e, s.current ⟨c.slot, c.gen⟩ = some e → e.state = .searching →
      s.reference c.slot ≠ some c.ref) :
    execResultClaim s = .next (s.resultTaken rest) := by
  unfold execResultClaim
  rw [hr]
  dsimp only
  split
  · rfl
  · rename_i e he
    exact congrArg Host.Outcome.next (if_neg fun hfits => h e he hfits.1 hfits.2)

end Claim

/-- Settles O48: the run by `execSearchRunComplete_of_head`, the claim by `execResultClaim_of_fits` and
`execResultClaim_of_not_fits`, with the two cases of `applyResult`. -/
theorem searchRunAndResult : Obligations.SearchRunAndResult := by
  refine ⟨fun s j rest e p hrun hjobs he hp => ?_,
    fun s c rest hr => ⟨fun e he hs href => ?_, execResultClaim_of_not_fits hr⟩⟩
  · rw [← jobResult_of_calendar he hp]
    exact execSearchRunComplete_of_head hrun hjobs
  · have happlied := execResultClaim_of_fits hr he hs href
    unfold applyResult at happlied
    refine ⟨fun second hfound => ?_, fun hfound => ?_⟩ <;> rw [hfound] at happlied <;> exact happlied

end Sys2Proof.Machine
end

section
/-! PROOFS. The inputs of the Standby Controller, the hold and the start (O60). -/

namespace Sys2Proof.Machine

/-! ### The input filters (R172) -/

theorem Pin.due_iff {x : Pin} : x.due = true ↔ x.run = 4 := by simp [Pin.due]

theorem Pin.taken_eq (x : Pin) (level : Bool) :
    x.taken level = ⟨if x.run = 4 then x.level else level, 0⟩ := by
  simp only [Pin.taken, Pin.due_iff]

section Samples

variable {x : Pin} {filtered : Bool}

/-- A pin after samples beside a filtered level. -/
def Pin.samples (x : Pin) (filtered : Bool) (n : Nat) : Pin := (fun y => y.sample filtered)^[n] x

theorem Pin.samples_succ (x : Pin) (filtered : Bool) (n : Nat) :
    x.samples filtered (n + 1) = (x.samples filtered n).sample filtered :=
  Function.iterate_succ_apply' _ n x

theorem Pin.sample_of_due (h : x.run = 4) : x.sample filtered = x := if_pos (Pin.due_iff.mpr h)

theorem Pin.sample_of_same (h : x.run ≠ 4) (hl : x.level = filtered) :
    x.sample filtered = ⟨x.level, 0⟩ := by
  simp [Pin.sample, Pin.due_iff, h, hl]

theorem Pin.sample_of_other (h : x.run ≠ 4) (hl : x.level ≠ filtered) :
    x.sample filtered = ⟨x.level, x.run + 1⟩ := by
  simp [Pin.sample, Pin.due_iff, h, hl]

theorem Pin.samples_level (n : Nat) : (x.samples filtered n).level = x.level := by
  induction n with
  | zero => rfl
  | succ n ih => rw [Pin.samples_succ, Pin.sample_level, ih]

/-- A change that is due waits. -/
theorem Pin.samples_of_due (h : x.run = 4) (n : Nat) : x.samples filtered n = x :=
  Function.iterate_fixed (Pin.sample_of_due h) n

/-- Samples of the filtered level begin the count anew. -/
theorem Pin.samples_of_same (h : x.run < 4) (hl : x.level = filtered) (n : Nat) :
    x.samples filtered (n + 1) = ⟨x.level, 0⟩ := by
  induction n with
  | zero => exact Pin.sample_of_same h.ne hl
  | succ n ih => rw [Pin.samples_succ, ih, Pin.sample_of_same (x := ⟨x.level, 0⟩) nofun hl]

/-- Samples of another level count on, up to four. -/
theorem Pin.samples_of_other (h : x.run < 4) (hl : x.level ≠ filtered) (n : Nat) :
    (x.samples filtered n).run = min 4 (x.run + n) := by
  induction n with
  | zero => exact (Nat.min_eq_right (Nat.le_of_lt h)).symm
  | succ n ih =>
    rw [Pin.samples_succ]
    have hlevel : (x.samples filtered n).level ≠ filtered := by rwa [Pin.samples_level]
    by_cases hdue : (x.samples filtered n).run = 4
    · rw [Pin.sample_of_due hdue]; omega
    · rw [Pin.sample_of_other hdue hlevel]
      show (x.samples filtered n).run + 1 = _
      omega

/-- What samples make of a pin: a change that is due waits, samples of the filtered level begin the count
anew, and those of another count on. -/
theorem Pin.samples_spec (x : Pin) (filtered : Bool) (n : Nat) :
    (x.samples filtered n).level = x.level ∧ (x.run = 4 → x.samples filtered n = x) ∧
    (x.run < 4 → 0 < n → x.level = filtered → (x.samples filtered n).run = 0) ∧
    (x.run < 4 → x.level ≠ filtered → (x.samples filtered n).run = min 4 (x.run + n)) := by
  refine ⟨Pin.samples_level n, fun h => Pin.samples_of_due h n, fun h hn hl => ?_,
    fun h hl => Pin.samples_of_other h hl n⟩
  obtain ⟨k, rfl⟩ := Nat.exists_eq_add_one_of_ne_zero hn.ne'
  rw [Pin.samples_of_same h hl]

end Samples

/-- Crystal cycles sample both pins and change nothing else of the Standby Controller. -/
theorem crystalCycles_standby (s : State) (n : Nat) : (crystalCycle^[n] s).standby =
    { s.standby with pfPin := s.standby.pfPin.samples s.standby.pf n
                     rstPin := s.standby.rstPin.samples s.standby.rst n } := by
  induction n with
  | zero => rfl
  | succ n ih =>
    rw [Function.iterate_succ_apply', show ∀ t, (crystalCycle t).standby = t.standby.sampled from
      fun _ => rfl, ih, Pin.samples_succ, Pin.samples_succ]
    rfl

/-! ### What an empty queue takes -/

section Idle

variable {s : State}

/-- On an empty queue, with no claim on its way, a due change of PF comes first. -/
theorem step_of_pf_due (hp : s.pending = []) (hc : nextClaim s = none) (hpf : s.standby.pfPin.run = 4) :
    step s = exec (.pf (!s.standby.pf) s.pins) s := by
  have hdue := Pin.due_iff.mpr hpf
  exact step_of_internal hp (by simp [nextInternal, hc, nextMark, onlyIf, hdue])

/-- Then comes a due change of RST. -/
theorem step_of_rst_due (hp : s.pending = []) (hc : nextClaim s = none)
    (hpf : s.standby.pfPin.run ≠ 4) (hrst : s.standby.rstPin.run = 4) :
    step s = exec (.rst (!s.standby.rst) s.pins) s := by
  have hdue := Pin.due_iff.mpr hrst
  have hnot := mt Pin.due_iff.mp hpf
  exact step_of_internal hp (by simp [nextInternal, hc, nextMark, onlyIf, hdue, hnot])

end Idle

/-! ### The changes of the inputs (R172) -/

/-- The start cause of a domain that stays HELD. -/
theorem Standby.heldCause_of_held {b : Standby} (h : b.running = false) (standby : Bool) :
    b.heldCause standby =
      if b.cause ≠ .none ∧ standby = true ∧ b.flag = false then .standby else b.cause := by
  unfold Standby.heldCause
  rw [h, if_neg Bool.false_ne_true]
  by_cases hcause : b.cause = .none <;> simp [hcause]

theorem Standby.heldCause_of_running {b : Standby} (h : b.running = true) (standby : Bool) :
    b.heldCause standby = if standby then .standby else .reset := by
  unfold Standby.heldCause
  rw [if_pos h]

section Inputs

variable {s : State} {pf rst good : Bool} {straps : Straps}

/-- The Standby Controller after a change of an input, before the port domain takes it. -/
def Standby.changed (b : Standby) (pf rst good : Bool) : Standby :=
  { b with pf, rst, vddGood := good, flag := pf || !good, wake := b.wake && (pf || !good) }

/-- Hold becoming true holds a running domain. -/
theorem State.inputs_of_hold (hh : holdCond pf rst good = true) (hr : s.standby.running = true) :
    s.inputs pf rst good straps = ({ s with standby := { s.standby.changed pf rst good with
      running := false, cause := if pf || !good then .standby else .reset } } : State).holdDomain := by
  rw [← Standby.heldCause_of_running hr]
  exact (if_pos hh).trans (if_pos hr)

/-- A held domain stays held, and its start cause can become STANDBY. -/
theorem State.inputs_of_held (hh : holdCond pf rst good = true) (hr : s.standby.running = false) :
    s.inputs pf rst good straps = { s with standby := { s.standby.changed pf rst good with
      cause := if s.standby.cause ≠ .none ∧ (pf || !good) = true ∧ s.standby.flag = false then .standby
        else s.standby.cause } } := by
  rw [← Standby.heldCause_of_held hr]
  refine ((if_pos hh).trans (if_neg (Bool.eq_false_iff.mp hr))).trans ?_
  unfold Standby.changed
  rw [hr]
  rfl

/-- A running domain goes on. -/
theorem State.inputs_of_running (hh : holdCond pf rst good = false) (hr : s.standby.running = true) :
    s.inputs pf rst good straps = { s with standby := s.standby.changed pf rst good } :=
  (if_neg (Bool.eq_false_iff.mp hh)).trans (if_pos hr)

/-- Hold becoming false starts a held domain. -/
theorem State.inputs_of_start (hh : holdCond pf rst good = false) (hr : s.standby.running = false) :
    s.inputs pf rst good straps =
      ({ s with standby := s.standby.changed pf rst good } : State).startDomain straps :=
  (if_neg (Bool.eq_false_iff.mp hh)).trans (if_neg (Bool.eq_false_iff.mp hr))

end Inputs

/-! ### The hold and the start (R173, R175) -/

/-- A hold changes the lease, the ports, the queues, the engine and what is on its way, and nothing
else. -/
theorem State.holdDomain_frame (s : State) :
    let e := s.endLease (some .reset)
    s.holdDomain = { s with
      lease := e.lease, queues := s.holdDomain.queues, ports := s.holdDomain.ports
      search := { s.search with engine := .paused }
      transit := { e.transit with kicks := [], sessionEnds := [] } } := by
  obtain ⟨lease, transit, h⟩ : ∃ lease transit, s.endLease (some .reset) = { s with lease, transit } :=
    ⟨_, _, s.endLease_frame _⟩
  unfold State.holdDomain
  rw [h]

/-- A hold returns what is in flight to unsent (R97). -/
theorem State.holdDomain_queue (s : State) (p : Port) :
    s.holdDomain.queue p = (s.queue p).returnToUnsent := by
  have h : (s.endLease (some .reset)).queues = s.queues := by rw [s.endLease_frame]
  simp [State.holdDomain, State.queue, h]

/-- A start changes the ports, the straps as read, the lease, the engine and the Standby Controller, and
nothing else. -/
theorem State.startDomain_frame (s : State) (straps : Straps) : s.startDomain straps = { s with
    ports := (s.startDomain straps).ports, supervisor := straps.supv, baud := straps.baud
    lease := ⟨none, 0⟩, search := { s.search with engine := takeUp s.search.jobs }
    standby := { s.standby with running := true, cause := .reset } } := rfl

/-- Settles O60: the filters by `Pin.samples_spec`, the changes of the inputs by the four cases of
`State.inputs`, and the hold and the start by their frames. -/
theorem standbyHoldAndStart : Obligations.StandbyHoldAndStart := by
  refine ⟨fun s level straps => ?_, fun s n => ?_, fun s pf rst good straps =>
      ⟨State.inputs_of_hold, State.inputs_of_held, State.inputs_of_running, State.inputs_of_start⟩,
    fun s => ⟨s.holdDomain_frame, s.holdDomain_queue, s.holdDomain_port⟩, fun s straps => ?_⟩
  · intro b taken pfTaken rstTaken
    have htaken (x : Pin) : x.taken level = taken x := x.taken_eq level
    have hpf : exec (.pf level straps) s = .next
        ((s.atPins s.pins { b with pfPin := b.pfPin.taken level }).inputs level b.rst b.vddGood straps) := rfl
    have hrst : exec (.rst level straps) s = .next
        ((s.atPins s.pins { b with rstPin := b.rstPin.taken level }).inputs b.pf level b.vddGood straps) := rfl
    rw [htaken] at hpf hrst
    exact ⟨hpf, hrst, rfl, rfl, rfl, rfl⟩
  · intro b t filters
    have ht : t = { b with pfPin := b.pfPin.samples b.pf n, rstPin := b.rstPin.samples b.rst n } :=
      crystalCycles_standby s n
    rw [ht]
    exact ⟨b.pfPin.samples_spec b.pf n, b.rstPin.samples_spec b.rst n,
      fun hp hc => ⟨step_of_pf_due hp hc, step_of_rst_due hp hc⟩⟩
  · intro t ended
    have hended : s.standby.cause.sessionEnd = ended := by
      simp only [ended]
      cases s.standby.cause <;> rfl
    refine ⟨(s.startDomain_frame straps).trans ?_, fun p => ?_⟩
    · cases s.search.jobs <;> rfl
    · rw [← hended]
      exact s.startDomain_port straps p

end Sys2Proof.Machine
end

section
/-! PROOFS. The return to unsent (O52): what the merging of R85 makes of the firings of each handle, of
the other records and of the reports of a loss. -/

namespace Sys2Proof.Machine

/-! ### The firings of one handle in a list of records -/

/-- The fields of a FIRE or MISSED record that coalescing keeps or changes (R83). -/
structure Firing where
  tag : BitVec 32
  due : Nat
  lateness : Nat
  count : Nat
  missed : Bool
  isFinal : Bool

/-- The firing that a record reports, where it is a FIRE or MISSED record of a handle. -/
def Record.firingOf (n : Handle) (r : Record) : Option Firing :=
  match r.content with
  | .firing missed n' tag due count late isFinal =>
    if n' = n then some ⟨tag, due, late, count, missed, isFinal⟩ else none
  | _ => none

/-- The firings of a handle in a list of records, in its order. -/
def firingsOf (n : Handle) (l : List Record) : List Firing := l.filterMap (·.firingOf n)

/-- A firing takes a later one of its handle in (R83). -/
def Firing.absorb (a b : Firing) : Firing :=
  { a with count := min 255 (a.count + b.count), missed := a.missed || b.missed, isFinal := b.isFinal }

/-- The one firing that is left of those of a handle once they are merged. -/
def mergedFirings : List Firing → List Firing
  | [] => []
  | x :: rest => [rest.foldl Firing.absorb x]

theorem Record.firesFor_iff {r : Record} {n : Handle} :
    r.firesFor n = true ↔ r.firingHandle = some n := by
  obtain ⟨c, loss⟩ := r
  cases c <;> simp [Record.firesFor, Record.firingHandle]

theorem Record.firesFor_eq_false_iff {r : Record} {n : Handle} :
    r.firesFor n = false ↔ r.firingHandle ≠ some n := by
  rw [← Bool.not_eq_true, Record.firesFor_iff]

/-- A record reports a firing of a handle exactly where it is a FIRE or MISSED record of it. -/
theorem Record.firingOf_isSome {r : Record} {n : Handle} :
    (r.firingOf n).isSome = (r.firingHandle == some n) := by
  obtain ⟨c, loss⟩ := r
  cases c with
  | firing missed n' tag due count late isFinal =>
    by_cases h : n' = n <;> simp [Record.firingOf, Record.firingHandle, h]
  | _ => rfl

theorem Record.firingOf_eq_none {r : Record} {n : Handle} (h : r.firingHandle ≠ some n) :
    r.firingOf n = none :=
  Option.not_isSome_iff_eq_none.mp (by simpa [Record.firingOf_isSome] using h)

/-- As many firings of a handle stand in a list as FIRE and MISSED records name it. -/
theorem length_firingsOf (n : Handle) (l : List Record) :
    (firingsOf n l).length = (l.filterMap (·.firingHandle)).count n := by
  induction l with
  | nil => rfl
  | cons r rest ih =>
    have hr := r.firingOf_isSome (n := n)
    unfold firingsOf at ih ⊢
    rw [List.filterMap_cons, List.filterMap_cons]
    cases hf : r.firingOf n <;> cases hh : r.firingHandle <;> rw [hf, hh] at hr <;>
      simp_all

/-- No handle has two FIRE or MISSED records (R83). -/
def Coalesced (l : List Record) : Prop := (l.filterMap (·.firingHandle)).Nodup

theorem coalesced_iff {l : List Record} : Coalesced l ↔ ∀ n, (firingsOf n l).length ≤ 1 := by
  simp only [Coalesced, List.nodup_iff_count_le_one, length_firingsOf]

theorem length_mergedFirings (l : List Firing) : (mergedFirings l).length ≤ 1 := by
  cases l <;> simp [mergedFirings]

/-- Firings can be merged in two goes. -/
theorem mergedFirings_append (l rest : List Firing) :
    mergedFirings (mergedFirings l ++ rest) = mergedFirings (l ++ rest) := by
  cases l <;> simp [mergedFirings]

theorem mergedFirings_of_single {l : List Firing} (h : l.length ≤ 1) : mergedFirings l = l := by
  match l, h with
  | [], _ => rfl
  | [x], _ => rfl

/-! ### One record merged into those already passed -/

/-- Everything the merging does with one record: it goes into the kept record of its handle, or joins the
kept ones (R85). -/
theorem mergeUnsent_cons (kept : List Record) (carry : Bool) (r : Record) :
    (∃ missed n tag due count late isFinal front x back,
      r.content = .firing missed n tag due count late isFinal ∧ kept = front ++ x :: back ∧
      x.firingHandle = some n ∧ ∀ rest, mergeUnsent kept carry (r :: rest) =
        mergeUnsent (front ++ x.coalesce missed count isFinal :: back) (r.lossBefore || carry) rest) ∨
    ((∀ n, r.firingHandle = some n → ∀ y ∈ kept, y.firingHandle ≠ some n) ∧
      ∀ rest, mergeUnsent kept carry (r :: rest) =
        mergeUnsent (kept ++ [{ r with lossBefore := r.lossBefore || carry }]) false rest) := by
  obtain ⟨content, loss⟩ := r
  cases content with
  | firing missed n tag due count late isFinal =>
    cases hc : coalesceFirst n missed count isFinal kept with
    | some kept' =>
      obtain ⟨front, x, back, hkept, -, hx, rfl⟩ := coalesceFirst_some hc
      exact .inl ⟨missed, n, tag, due, count, late, isFinal, front, x, back, rfl, hkept,
        Record.firesFor_iff.mp hx, fun rest => by simp only [mergeUnsent, hc]⟩
    | none =>
      refine .inr ⟨fun m hm y hy => ?_, fun rest => by simp only [mergeUnsent, hc]⟩
      cases hm
      exact Record.firesFor_eq_false_iff.mp (coalesceFirst_none.mp hc y hy)
  | _ => exact .inr ⟨nofun, fun _ => rfl⟩

/-- A FIRE or MISSED record that takes a later firing in reports the two firings merged. -/
theorem Record.coalesce_firingOf {x : Record} {n : Handle} (h : x.firingHandle = some n) (m : Handle)
    (missed : Bool) (tag : BitVec 32) (due count late : Nat) (isFinal loss : Bool) :
    ((x.coalesce missed count isFinal).firingOf m).toList =
      mergedFirings ((x.firingOf m).toList ++
        ((⟨.firing missed n tag due count late isFinal, loss⟩ : Record).firingOf m).toList) := by
  obtain ⟨content, loss'⟩ := x
  cases content <;> cases h
  by_cases hm : n = m <;>
    simp [Record.coalesce, Record.firingOf, hm, mergedFirings, Firing.absorb, Config.countSaturation]

@[simp] theorem Record.coalesce_lossBefore (r : Record) (missed : Bool) (count : Nat) (isFinal : Bool) :
    (r.coalesce missed count isFinal).lossBefore = r.lossBefore := by
  unfold Record.coalesce; split <;> rfl

@[simp] theorem Record.coalesce_firingHandle (r : Record) (missed : Bool) (count : Nat) (isFinal : Bool) :
    (r.coalesce missed count isFinal).firingHandle = r.firingHandle := by
  obtain ⟨content, loss⟩ := r
  cases content <;> rfl

theorem firingsOf_append (n : Handle) (l l' : List Record) :
    firingsOf n (l ++ l') = firingsOf n l ++ firingsOf n l' := List.filterMap_append

theorem firingsOf_cons (n : Handle) (r : Record) (l : List Record) :
    firingsOf n (r :: l) = (r.firingOf n).toList ++ firingsOf n l := by
  unfold firingsOf
  rw [List.filterMap_cons]
  cases r.firingOf n <;> rfl

theorem firingsOf_eq_nil {n : Handle} {l : List Record} (h : ∀ r ∈ l, r.firingHandle ≠ some n) :
    firingsOf n l = [] :=
  List.filterMap_eq_nil_iff.mpr fun r hr => Record.firingOf_eq_none (h r hr)

theorem firingsOf_ne_nil {n : Handle} {l : List Record} {r : Record} (hr : r ∈ l)
    (h : r.firingHandle = some n) : firingsOf n l ≠ [] := by
  intro he
  have hnone := List.filterMap_eq_nil_iff.mp he r hr
  simpa [hnone, h] using r.firingOf_isSome (n := n)

theorem mem_filterMap_firingHandle {n : Handle} {l : List Record} :
    n ∈ l.filterMap (·.firingHandle) ↔ firingsOf n l ≠ [] := by
  rw [← List.count_pos_iff, ← length_firingsOf, List.length_pos_iff]

/-! ### The merging of a whole list -/

/-- The contents of the records that are no FIRE or MISSED records. -/
def otherContents (l : List Record) : List Content :=
  (l.filter fun r => r.firingHandle.isNone).map (·.content)

theorem otherContents_append (l l' : List Record) :
    otherContents (l ++ l') = otherContents l ++ otherContents l' := by
  simp [otherContents]

/-- A record coalesced into the kept record of its handle. -/
theorem firingsOf_coalesced {front back : List Record} {x : Record} {m : Handle} (n : Handle)
    (missed : Bool) (tag : BitVec 32) (due count late : Nat) (isFinal loss : Bool)
    (hkept : Coalesced (front ++ x :: back)) (hx : x.firingHandle = some m) :
    firingsOf n (front ++ x.coalesce missed count isFinal :: back) =
      mergedFirings (firingsOf n (front ++ x :: back) ++
        firingsOf n [⟨.firing missed m tag due count late isFinal, loss⟩]) := by
  have hone := coalesced_iff.mp hkept n
  have hmerge := Record.coalesce_firingOf hx n missed tag due count late isFinal loss
  simp only [firingsOf_append, firingsOf_cons] at hone ⊢
  rw [show firingsOf n [] = [] from rfl, List.append_nil]
  by_cases hm : m = n
  · subst hm
    have hlen : ((x.firingOf m).toList).length = 1 := by
      obtain ⟨y, hy⟩ := Option.isSome_iff_exists.mp (show (x.firingOf m).isSome by
        simp [Record.firingOf_isSome, hx])
      rw [hy]; rfl
    simp only [List.length_append] at hone
    have hfront : firingsOf m front = [] := List.length_eq_zero_iff.mp (by omega)
    have hback : firingsOf m back = [] := List.length_eq_zero_iff.mp (by omega)
    rw [hfront, hback, hmerge]
    simp
  · have hx' : x.firingOf n = none := Record.firingOf_eq_none (by simpa [hx] using hm)
    have hr' : (⟨.firing missed m tag due count late isFinal, loss⟩ : Record).firingOf n = none :=
      Record.firingOf_eq_none (by simpa [Record.firingHandle] using hm)
    rw [hx', hr'] at hmerge
    rw [hx'] at hone
    rw [hmerge, hx', hr', Option.toList_none, List.append_nil, List.append_nil]
    exact (mergedFirings_of_single hone).symm

/-- A record that joins the kept ones, none of which is of its handle. -/
theorem firingsOf_joined {kept : List Record} {r : Record} (n : Handle) (loss : Bool)
    (hkept : Coalesced kept)
    (hnew : ∀ m, r.firingHandle = some m → ∀ y ∈ kept, y.firingHandle ≠ some m) :
    firingsOf n (kept ++ [{ r with lossBefore := loss }]) =
      mergedFirings (firingsOf n kept ++ firingsOf n [r]) := by
  rw [firingsOf_append, show firingsOf n [{ r with lossBefore := loss }] = firingsOf n [r] from rfl]
  refine (mergedFirings_of_single ?_).symm
  by_cases hr : r.firingHandle = some n
  · rw [firingsOf_eq_nil (hnew n hr)]
    exact List.length_filterMap_le _ [r]
  · rw [firingsOf_cons, Record.firingOf_eq_none hr, Option.toList_none,
      show firingsOf n [] = [] from rfl]
    simpa using coalesced_iff.mp hkept n

/-- One record merged into the kept ones: of each handle's firings one is left, the other records stand in
their order, and a report of a loss is passed on. -/
theorem mergeUnsent_step (kept : List Record) (carry : Bool) (r : Record) (hkept : Coalesced kept) :
    ∃ kept' carry', (∀ rest, mergeUnsent kept carry (r :: rest) = mergeUnsent kept' carry' rest) ∧
      (∀ n, firingsOf n kept' = mergedFirings (firingsOf n kept ++ firingsOf n [r])) ∧
      otherContents kept' = otherContents (kept ++ [r]) ∧
      (carry' || kept'.any (·.lossBefore)) = (carry || (kept ++ [r]).any (·.lossBefore)) := by
  rcases mergeUnsent_cons kept carry r with
    ⟨missed, m, tag, due, count, late, isFinal, front, x, back, hr, rfl, hx, e⟩ | ⟨hnew, e⟩
  · refine ⟨_, _, e, fun n => ?_, ?_, ?_⟩
    · obtain ⟨content, loss⟩ := r
      cases hr
      exact firingsOf_coalesced n missed tag due count late isFinal loss hkept hx
    · have hfiring : r.firingHandle = some m := by
        obtain ⟨content, loss⟩ := r
        cases hr
        rfl
      simp [otherContents, hx, hfiring]
    · simp only [List.any_append, List.any_cons, List.any_nil, Record.coalesce_lossBefore]
      ac_nf
  · refine ⟨_, _, e, fun n => firingsOf_joined n _ hkept hnew, ?_, ?_⟩
    · rw [otherContents_append, otherContents_append]
      congr 1
      have hsame : ({ r with lossBefore := r.lossBefore || carry } : Record).firingHandle =
        r.firingHandle := rfl
      cases h : r.firingHandle <;> simp [otherContents, hsame, h]
    · simp only [List.any_append, List.any_cons, List.any_nil]
      ac_nf

/-- The merging of a list into kept records of which no two are firings of one handle (R85). -/
theorem mergeUnsent_spec (kept : List Record) (carry : Bool) (l : List Record) (hkept : Coalesced kept) :
    let m := mergeUnsent kept carry l
    (∀ n, firingsOf n m.1 = mergedFirings (firingsOf n kept ++ firingsOf n l)) ∧
    otherContents m.1 = otherContents (kept ++ l) ∧
    (m.2 || m.1.any (·.lossBefore)) = (carry || (kept ++ l).any (·.lossBefore)) := by
  induction l generalizing kept carry with
  | nil =>
    refine ⟨fun n => ?_, by rw [List.append_nil]; rfl, by rw [List.append_nil]; rfl⟩
    rw [show firingsOf n [] = [] from rfl, List.append_nil,
      mergedFirings_of_single (coalesced_iff.mp hkept n)]
    rfl
  | cons r rest ih =>
    obtain ⟨kept', carry', e, hfirings, hothers, hloss⟩ := mergeUnsent_step kept carry r hkept
    have hkept' : Coalesced kept' := coalesced_iff.mpr fun n => hfirings n ▸ length_mergedFirings _
    obtain ⟨ih1, ih2, ih3⟩ := ih kept' carry' hkept'
    intro m
    have hm : m = mergeUnsent kept' carry' rest := e rest
    rw [hm]
    refine ⟨fun n => ?_, ?_, ?_⟩
    · rw [ih1, hfirings, mergedFirings_append, List.append_assoc, ← firingsOf_append]
      rfl
    · rw [ih2, otherContents_append, hothers, ← otherContents_append, List.append_assoc]
      rfl
    · rw [ih3, List.any_append, ← Bool.or_assoc, hloss]
      simp [Bool.or_assoc]

/-! ### The return to unsent -/

/-- The records of a queue, in flight and unsent, in their order (R82). -/
def NoticeQueue.records (q : NoticeQueue) : List Record := q.inFlight.map (·.record) ++ q.unsent

/-- What the return to unsent makes of the records of a queue (R85). -/
theorem NoticeQueue.returnToUnsent_spec (q : NoticeQueue) :
    (∀ n, firingsOf n q.returnToUnsent.unsent = mergedFirings (firingsOf n q.records)) ∧
    otherContents q.returnToUnsent.unsent = otherContents q.records ∧
    (q.returnToUnsent.loss || q.returnToUnsent.unsent.any (·.lossBefore)) =
      (q.loss || q.records.any (·.lossBefore)) := by
  obtain ⟨hfirings, hothers, hloss⟩ := mergeUnsent_spec [] false q.records List.nodup_nil
  refine ⟨hfirings, hothers, ?_⟩
  rw [Bool.false_or, List.nil_append] at hloss
  rw [← hloss, ← Bool.or_assoc]
  rfl

theorem NoticeQueue.returnToUnsent_coalesced (q : NoticeQueue) : Coalesced q.returnToUnsent.unsent :=
  coalesced_iff.mpr fun n => (q.returnToUnsent_spec.1 n).symm ▸ length_mergedFirings _

theorem NoticeQueue.returnToUnsent_size (q : NoticeQueue) : q.returnToUnsent.size ≤ q.size := by
  have h := mergeUnsent_length [] false (q.inFlight.map (·.record) ++ q.unsent)
  simpa [NoticeQueue.size, NoticeQueue.returnToUnsent] using h

/-! ### The merged firing of a handle -/

/-- The count of a merged firing is the saturated sum. -/
theorem foldl_absorb_count (x : Firing) (rest : List Firing) (hx : x.count ≤ 255) :
    (rest.foldl Firing.absorb x).count = min 255 (x.count + (rest.map (·.count)).sum) := by
  induction rest generalizing x with
  | nil => simp [hx]
  | cons y rest ih =>
    rw [List.foldl_cons, ih _ (Nat.min_le_left _ _), List.map_cons, List.sum_cons]
    show min 255 (min 255 (x.count + y.count) + _) = _
    omega

/-- A merged firing is MISSED when any of those merged was. -/
theorem foldl_absorb_missed (x : Firing) (rest : List Firing) :
    (rest.foldl Firing.absorb x).missed = (x :: rest).any (·.missed) := by
  induction rest generalizing x with
  | nil => simp
  | cons y rest ih => simp [ih, Firing.absorb, Bool.or_assoc]

/-- A merged firing has the final flag of the latest. -/
theorem foldl_absorb_isFinal (x y : Firing) (rest : List Firing) :
    ((rest ++ [y]).foldl Firing.absorb x).isFinal = y.isFinal := by
  rw [List.foldl_append]; rfl

/-- A merged firing has the tag, due and lateness of the earliest. -/
theorem foldl_absorb_first (x : Firing) (rest : List Firing) :
    let y := rest.foldl Firing.absorb x
    y.tag = x.tag ∧ y.due = x.due ∧ y.lateness = x.lateness := by
  induction rest generalizing x with
  | nil => exact ⟨rfl, rfl, rfl⟩
  | cons y rest ih => exact ih (x.absorb y)

/-- The first fields of what is left of a handle's firings are those of the first. -/
theorem map_first_mergedFirings (l : List Firing) :
    (mergedFirings l).map (fun f => (f.tag, f.due, f.lateness)) =
      (l.map fun f => (f.tag, f.due, f.lateness)).take 1 := by
  cases l with
  | nil => rfl
  | cons x rest =>
    obtain ⟨htag, hdue, hlate⟩ := foldl_absorb_first x rest
    simp [mergedFirings, htag, hdue, hlate]

/-- What is left is MISSED when any is and has the final flag of the last. -/
theorem map_kind_mergedFirings {l : List Firing} {kinds : List (Bool × Bool)} {x : Bool × Bool}
    (h : l.map (fun f => (f.missed, f.isFinal)) = kinds ++ [x]) :
    (mergedFirings l).map (fun f => (f.missed, f.isFinal)) = [((kinds ++ [x]).any (·.1), x.2)] := by
  obtain ⟨front, last, rfl, rfl, hlast⟩ := List.map_eq_append_iff.mp h
  obtain ⟨y, rfl, rfl⟩ : ∃ y, last = [y] ∧ (y.missed, y.isFinal) = x := by
    simpa [List.map_eq_singleton_iff] using hlast
  cases front with
  | nil => simp [mergedFirings]
  | cons z front =>
    show [(((front ++ [y]).foldl Firing.absorb z).missed,
      ((front ++ [y]).foldl Firing.absorb z).isFinal)] = _
    rw [foldl_absorb_missed, foldl_absorb_isFinal]
    simp [Function.comp_def]

/-- The count of what is left is the saturated sum. -/
theorem map_count_mergedFirings {l : List Firing} (h : ∀ c ∈ l.map (·.count), c ≤ 255)
    (hl : l.map (·.count) ≠ []) :
    (mergedFirings l).map (·.count) = [min 255 (l.map (·.count)).sum] := by
  cases l with
  | nil => exact absurd rfl hl
  | cons x rest =>
    have hx : x.count ≤ 255 := h x.count (by simp)
    simp [mergedFirings, foldl_absorb_count x rest hx]

/-- Reading a field of a handle's firing records is reading it of its firings. -/
theorem map_firingsOf {α : Type} (n : Handle) (field : Firing → α) (l : List Record) :
    (firingsOf n l).map field = l.filterMap fun r => match r.content with
      | .firing missed n' tag due count late isFinal =>
        if n' = n then some (field ⟨tag, due, late, count, missed, isFinal⟩) else none
      | _ => none := by
  unfold firingsOf
  rw [List.map_filterMap]
  refine congrArg (fun f => List.filterMap f l) (funext fun r => ?_)
  obtain ⟨content, loss⟩ := r
  cases content with
  | firing missed n' tag due count late isFinal =>
    by_cases h : n' = n <;> simp [Record.firingOf, h]
  | _ => rfl

/-- Settles O52: of the firings of each handle one merged firing is left
(`NoticeQueue.returnToUnsent_spec`), whose fields are read off `mergedFirings`. -/
theorem returnToUnsentMerges : Obligations.ReturnToUnsentMerges := by
  intro q before after counts firsts kinds
  obtain ⟨hfirings, hothers, hloss⟩ := q.returnToUnsent_spec
  have hcounts (n : Handle) (l : List Record) : counts n l = (firingsOf n l).map (·.count) :=
    (map_firingsOf n (·.count) l).symm
  have hfirsts (n : Handle) (l : List Record) :
      firsts n l = (firingsOf n l).map fun f => (f.tag, f.due, f.lateness) :=
    (map_firingsOf n (fun f => (f.tag, f.due, f.lateness)) l).symm
  have hkinds (n : Handle) (l : List Record) :
      kinds n l = (firingsOf n l).map fun f => (f.missed, f.isFinal) :=
    (map_firingsOf n (fun f => (f.missed, f.isFinal)) l).symm
  refine ⟨rfl, fun n l x hx => ?_, q.returnToUnsent_coalesced, fun r hr n hn => ?_, fun n => ?_,
    fun n hle hne => ?_, hothers, hloss, q.returnToUnsent_size⟩
  · rw [hkinds] at hx ⊢
    rw [hfirings]
    exact map_kind_mergedFirings hx
  · rw [mem_filterMap_firingHandle, hfirings]
    have hne : firingsOf n q.records ≠ [] := firingsOf_ne_nil hr hn
    cases h : firingsOf n q.records with
    | nil => exact absurd h hne
    | cons x rest => exact nofun
  · rw [hfirsts, hfirsts, hfirings]
    exact map_first_mergedFirings _
  · rw [hcounts] at hle hne ⊢
    rw [hfirings, hcounts]
    exact map_count_mergedFirings hle hne

end Sys2Proof.Machine
end

section
/-! PROOFS. The moves of a port: what an event can do to a port's controller and Notice Queue, said once,
for the laws over the four ports (O11, O12). -/

namespace Sys2Proof.Machine

/-! ### The link of a state -/

/-- The items the laws over the ports speak of: the controllers, the Notice Queues, the holder of the
lease, and the Standby Controller without its filters and its start cause. -/
structure Link where
  ports : Quad PortCtl
  queues : Quad NoticeQueue
  holder : Option Port
  running : Bool
  flag : Bool
  wake : Bool
  pf : Bool
  rst : Bool
  vddGood : Bool

/-- The link of a state. -/
def State.link (s : State) : Link :=
  { ports := s.ports, queues := s.queues, holder := s.lease.holder, running := s.standby.running
    flag := s.standby.flag, wake := s.standby.wake, pf := s.standby.pf, rst := s.standby.rst
    vddGood := s.standby.vddGood }

@[simp] theorem State.place_link (s : State) (i : SlotNo) (e : Entry) (ref : Reference) :
    (s.place i e ref).link = s.link := by rw [s.place_frame]; rfl

@[simp] theorem State.releaseEntries_link (s : State) (p : Port) : (s.releaseEntries p).link = s.link :=
  State.releaseEntries_keeps (P := fun t => t.link = s.link) (fun _ _ h => h) rfl

theorem releaseEntries_foldl_link (l : List Port) (s : State) :
    (l.foldl State.releaseEntries s).link = s.link := by
  induction l generalizing s with
  | nil => rfl
  | cons p rest ih => rw [List.foldl_cons, ih, State.releaseEntries_link]

theorem epochEndSlot_foldl_link (l : List SlotNo) (s : State) :
    (l.foldl epochEndSlot s).link = s.link :=
  epochEnd_keeps (P := fun t => t.link = s.link) (fun t i _ _ _ ht => (t.place_link i _ _).trans ht) rfl l

@[simp] theorem State.takeLeaseEnd_link (s : State) (m : LeaseEndMsg) :
    (s.takeLeaseEnd m).link = s.link := by rw [s.takeLeaseEnd_frame]; rfl

@[simp] theorem State.settleLeaseEnds_link (s : State) : s.settleLeaseEnds.link = s.link :=
  State.settleLeaseEnds_keeps (P := fun t => t.link = s.link) (fun _ _ h => h)
    (fun t m h => (t.takeLeaseEnd_link m).trans h) rfl

theorem moveInstant_link (a : Advance) (s : State) : (moveInstant a s).link = s.link := by
  unfold moveInstant
  dsimp only
  cases a.done <;> (split <;> rfl)

theorem takeAdvance_link (s : State) : (takeAdvance s).link = s.link := by
  rcases takeAdvance_cases s with ⟨second, p, -, -, e⟩ | ⟨-, -, -, e⟩ | ⟨-, e⟩ <;> rw [e]
  · rfl
  · rfl
  · exact moveInstant_link _ s

theorem countAdvance_link (s : State) : (countAdvance s).link = s.link := by
  unfold countAdvance; dsimp only; split <;> rfl

theorem visitEntry_link (r : Rescan) (i : SlotNo) (e : Entry) (s : State) :
    (visitEntry r i e s).link = s.link := by
  rcases visitEntry_cases r i e s with ⟨st, ref, h⟩ | h | h <;> rw [h]
  · exact s.place_link _ _ _
  · rfl

theorem applyFiring_link (c : FiringClaim) (e : Entry) (s : State) :
    (applyFiring c e s).link = s.link := by
  have hplace := s.place_link c.handle.slot (e.fired c) c.next.reference
  unfold applyFiring State.handWake
  dsimp only
  split <;> split <;> exact hplace

theorem applyResult_link (c : ResultClaim) (e : Entry) (s : State) :
    (applyResult c e s).link = s.link := by
  unfold applyResult
  split <;> exact s.place_link _ _ _

theorem lookAt_link (m : LookMsg) (s : State) : (lookAt m s).link = s.link := by
  unfold lookAt
  dsimp only
  split <;> rfl

/-! ### What an event can do to one port -/

/-- A port's controller and Notice Queue written together. -/
def State.withPort (s : State) (p : Port) (c : PortCtl) (q : NoticeQueue) : State :=
  { s with ports := s.ports.set p c, queues := s.queues.set p q }

theorem State.onPort_eq_withPort (s : State) (p : Port) (f : PortCtl → PortCtl) :
    s.onPort p f = s.withPort p (f (s.port p)) (s.queue p) := by
  simp [State.onPort, State.withPort, State.queue]

theorem State.onQueue_eq_withPort (s : State) (p : Port) (f : NoticeQueue → NoticeQueue) :
    s.onQueue p f = s.withPort p (s.port p) (f (s.queue p)) := by
  simp [State.onQueue, State.withPort, State.port]

theorem State.onQueue_onPort (s : State) (p : Port) (f : NoticeQueue → NoticeQueue)
    (g : PortCtl → PortCtl) :
    (s.onQueue p f).onPort p g = s.withPort p (g (s.port p)) (f (s.queue p)) := rfl

theorem State.withPort_port (s : State) (p r : Port) (c : PortCtl) (q : NoticeQueue) :
    (s.withPort p c q).port r = if r = p then c else s.port r := Quad.get_set _ p r c

theorem State.withPort_queue (s : State) (p r : Port) (c : PortCtl) (q : NoticeQueue) :
    (s.withPort p c q).queue r = if r = p then q else s.queue r := Quad.get_set _ p r q

@[simp] theorem State.withPort_port_self (s : State) (p : Port) (c : PortCtl) (q : NoticeQueue) :
    (s.withPort p c q).port p = c := Quad.get_set_self _ p c

@[simp] theorem State.withPort_queue_self (s : State) (p : Port) (c : PortCtl) (q : NoticeQueue) :
    (s.withPort p c q).queue p = q := Quad.get_set_self _ p q

@[simp] theorem State.withPort_withPort (s : State) (p : Port) (c c' : PortCtl) (q q' : NoticeQueue) :
    (s.withPort p c q).withPort p c' q' = s.withPort p c' q' := by
  simp [State.withPort]

theorem State.resync_eq_withPort (s : State) (p : Port) :
    s.resync p = s.withPort p { s.port p with delivery := ⟨.ready, 0, 0, none⟩ }
      (s.queue p).returnToUnsent := rfl

/-- The queue that an OPEN with these characters resynchronises: emptied by FLUSH (R141). -/
def openQueue (body : List Byte) (q : NoticeQueue) : NoticeQueue :=
  if (byteAt body 1).getLsbD 7 then NoticeQueue.flushed else q

/-- What an OPEN that passes its checks makes of its port (R140, R141). -/
theorem openAct_of_some {p : Port} {body : List Byte} {s : State} {x : Session}
    (hx : openSession body (s.port p).session.lastEnd = some x) :
    let t := s.withPort p { s.port p with cache := none, session := x, delivery := ⟨.ready, 0, 0, none⟩ }
      (openQueue body (s.queue p)).returnToUnsent
    openAct p body s = t.respond p (okBody (openFields t p)) := by
  unfold openAct openQueue
  rw [hx]
  by_cases hflush : (byteAt body 1).getLsbD 7 = true
  · simp only [hflush, if_true, State.resync_eq_withPort, State.onPort_eq_withPort,
      State.onQueue_eq_withPort, State.withPort_withPort, State.withPort_port_self,
      State.withPort_queue_self]
  · simp only [hflush, if_false, Bool.false_eq_true, State.resync_eq_withPort, State.onPort_eq_withPort,
      State.onQueue_eq_withPort, State.withPort_withPort, State.withPort_port_self,
      State.withPort_queue_self]

/-- An OPEN with an option out of range is refused (R140). -/
theorem openAct_of_none {p : Port} {body : List Byte} {s : State}
    (hx : openSession body (s.port p).session.lastEnd = none) :
    openAct p body s = s.respond p [0x08] := by
  unfold openAct
  rw [hx]
  rfl

/-- A session record that is as it was but for the keepalive count of an OPEN session (R146). -/
def Session.Counts (x y : Session) : Prop :=
  y = x ∨ x.isOpen = true ∧ ∃ n, y = { x with keepCount := some n }

theorem Session.counts_reloaded (x : Session) : x.Counts x.reloaded := by
  unfold Session.reloaded
  split
  · rename_i h
    exact .inr ⟨h.1, _, rfl⟩
  · exact .inl rfl

/-- Everything an event other than a hold or a start of the port domain can do to a port's controller and
Notice Queue. -/
inductive PortMove (running : Bool) (c : PortCtl) (q : NoticeQueue) : PortCtl → NoticeQueue → Prop where
  /-- The receiver, a request's way to its response, the staging record, the cache or the transmitter move
  on. -/
  | turned {c' : PortCtl} (hrunning : running = true) (hsession : c.session.Counts c'.session)
      (hdelivery : c'.delivery = c.delivery) : PortMove running c q c' q
  /-- A request in service has its response (R165). -/
  | answered (body : List Byte) : PortMove running c q (c.respond body) q
  /-- A frame has been sent (R169). -/
  | freed (service : Option Service) (hservice : service = none ∨ service = c.service) :
      PortMove running c q { c with tx := .free, service } q
  /-- OPEN, whose FLUSH empties the queue (R140, R141). -/
  | opened (hrunning : running = true) (body : List Byte) (x : Session)
      (hx : openSession body c.session.lastEnd = some x) :
      PortMove running c q { c with cache := none, session := x, delivery := ⟨.ready, 0, 0, none⟩ }
        (openQueue body q).returnToUnsent
  /-- RESYNC (R94). -/
  | resynced (hrunning : running = true) (hopen : c.session.isOpen = true) :
      PortMove running c q { c with delivery := ⟨.ready, 0, 0, none⟩ } q.returnToUnsent
  /-- A teardown (R96, R147). -/
  | tornDown (cause : SessionEnd) : PortMove running c q (c.tornDown cause) q.returnToUnsent
  /-- A notice is placed (R81). -/
  | placed (content : Content) : PortMove running c q c (q.placeNotice content)
  /-- An ACK retires records (R89). -/
  | acked (hopen : c.session.isOpen = true) (front : List Sent) (x : Sent) (rest : List Sent)
      (hflight : q.inFlight = front ++ x :: rest) :
      PortMove running c q { c with delivery := c.delivery.acked (!rest.isEmpty) }
        { q with inFlight := rest }
  /-- The oldest unsent record is sent (R87). -/
  | sent (hrunning : running = true) (hready : c.delivery.state = .ready) (r : Record)
      (rest : List Record) (hunsent : q.unsent = r :: rest)
      (hwindow : q.inFlight.length < c.session.window) (frame : List Byte) :
      PortMove running c q
        { c with
          delivery := { c.delivery with
            nextSeq := c.delivery.nextSeq + 1
            timer := if q.inFlight.isEmpty then some 0 else c.delivery.timer }
          tx := .notice frame }
        { q with inFlight := q.inFlight ++ [⟨r, c.delivery.nextSeq, false⟩], unsent := rest }
  /-- The oldest marked record is sent again (R88). -/
  | resent (hrunning : running = true) (frame : List Byte) :
      PortMove running c q { c with tx := .notice frame } { q with inFlight := unmarkFirst q.inFlight }
  /-- An ack timer counts a tick (R90). -/
  | ticked (hrunning : running = true) : PortMove running c q c.ticked q
  /-- A retransmission round begins (R91). -/
  | round (hrunning : running = true) (hexpired : c.timerExpired = true) (retries : Nat) :
      PortMove running c q { c with delivery := { c.delivery with retries, timer := some 0 } } q.allMarked
  /-- The port stalls (R93). -/
  | stalled (hrunning : running = true) (hexpired : c.timerExpired = true) :
      PortMove running c q { c with delivery := { c.delivery with state := .stalled, timer := none } }
        q.unmarked

/-- A law over the link that each move of a port, of the lease and of the port domain keeps. -/
structure PortInvariant (P : State → Prop) : Prop where
  /-- The law looks at nothing but the link. -/
  frame : ∀ {s t : State}, P s → t.link = s.link → P t
  moved : ∀ {s : State} {p : Port} {c : PortCtl} {q : NoticeQueue}, P s →
    PortMove s.standby.running (s.port p) (s.queue p) c q → P (s.withPort p c q)
  /-- The lease ends, or is taken in a running port domain (R101, R104). -/
  leased : ∀ {s : State} (lease : LeaseUnit), P s →
    (lease.holder = none ∨ s.standby.running = true) → P { s with lease }
  /-- The Standby Controller takes a wake request (R179). -/
  woken : ∀ {s : State}, P s →
    P { s with standby := { s.standby with wake := s.standby.wake || s.standby.flag } }
  /-- A change of an input holds or starts the port domain, or neither (R172). -/
  inputs : ∀ {s : State} (pf rst good : Bool) (straps : Straps), P s → P (s.inputs pf rst good straps)
  cold : ∀ (s : State) (pf rst : Bool) (good : Option Straps), Answers P (execColdStart pf rst s good)

/-! ### What a frame start sends (R87, R93, R169) -/

/-- A frame starts at a free transmitter in a running port domain. -/
def State.canStart (s : State) (p : Port) : Prop :=
  s.standby.running = true ∧ (s.port p).tx = .free

section Choice

variable {s : State} {p : Port}

theorem State.frameChoice_of_not_canStart (h : ¬s.canStart p) : s.frameChoice p = none := by
  refine if_pos ?_
  simp only [State.canStart, not_and] at h
  cases hr : s.standby.running <;> simp_all

/-- The order of R169 at a transmitter that can start a frame. -/
theorem State.frameChoice_of_canStart (h : s.canStart p) : s.frameChoice p =
    match (s.port p).responseReady with
    | some (v, r) => some (.response v r)
    | none => if (s.port p).delivery.state = .ready then
        match (s.queue p).inFlight.find? (·.marked), (s.queue p).unsent with
        | some x, _ => some (.resend x)
        | none, r :: _ =>
          if (s.queue p).inFlight.length < (s.port p).session.window then some (.fresh r) else none
        | none, [] => none
      else none := by
  obtain ⟨hrunning, hfree⟩ := h
  unfold State.frameChoice
  dsimp only
  rw [hrunning, hfree]
  cases (s.port p).responseReady with
  | some y => rfl
  | none =>
    by_cases hready : (s.port p).delivery.state = .ready
    · rw [if_pos hready, hready]
      cases (s.queue p).inFlight.find? (·.marked) <;> cases (s.queue p).unsent <;> rfl
    · rw [if_neg hready]
      simp [hready]

theorem State.frameChoice_response_iff {v : Service} {r : Response} :
    s.frameChoice p = some (.response v r) ↔ s.canStart p ∧ (s.port p).responseReady = some (v, r) := by
  by_cases h : s.canStart p
  · rw [State.frameChoice_of_canStart h]
    cases (s.port p).responseReady with
    | some y => simp [h, Prod.ext_iff]
    | none =>
      simp only [h, reduceCtorEq, and_false, iff_false]
      split
      · split <;> simp
      · simp
  · simp [State.frameChoice_of_not_canStart h, h]

/-- The oldest marked record is sent again in READY, with no response ready. -/
theorem State.frameChoice_resend_iff {x : Sent} : s.frameChoice p = some (.resend x) ↔
    s.canStart p ∧ (s.port p).responseReady = none ∧ (s.port p).delivery.state = .ready ∧
      (s.queue p).inFlight.find? (·.marked) = some x := by
  by_cases h : s.canStart p
  · rw [State.frameChoice_of_canStart h]
    cases (s.port p).responseReady with
    | some y => simp
    | none =>
      by_cases hready : (s.port p).delivery.state = .ready
      · cases (s.queue p).inFlight.find? (·.marked) with
        | some y => simp [h, hready]
        | none =>
          simp only [hready, if_true, reduceCtorEq, and_false, iff_false]
          split <;> simp_all
      · simp [hready]
  · simp [State.frameChoice_of_not_canStart h, h]

/-- The oldest unsent record is sent in READY within the window, with no response ready and no record
marked. -/
theorem State.frameChoice_fresh_iff {r : Record} : s.frameChoice p = some (.fresh r) ↔
    s.canStart p ∧ (s.port p).responseReady = none ∧ (s.port p).delivery.state = .ready ∧
      (s.queue p).inFlight.find? (·.marked) = none ∧ (∃ rest, (s.queue p).unsent = r :: rest) ∧
      (s.queue p).inFlight.length < (s.port p).session.window := by
  by_cases h : s.canStart p
  · rw [State.frameChoice_of_canStart h]
    cases (s.port p).responseReady with
    | some y => simp
    | none =>
      by_cases hready : (s.port p).delivery.state = .ready
      · cases (s.queue p).inFlight.find? (·.marked) with
        | some y => simp [hready]
        | none => cases (s.queue p).unsent <;> simp [h, hready, and_comm]
      · simp [hready]
  · simp [State.frameChoice_of_not_canStart h, h]

end Choice

end Sys2Proof.Machine
end

section
/-! PROOFS. A law that every move of a port, of the lease and of the port domain keeps is kept by every
step. -/

namespace Sys2Proof.Machine

theorem State.running_of_listening {s : State} {p : Port} (h : s.listening p = true) :
    s.standby.running = true := by
  unfold State.listening at h
  exact (Bool.and_eq_true_iff.mp h).1

@[simp] theorem State.settleSessionEnds_standby (s : State) (p : Port) :
    (s.settleSessionEnds p).standby = s.standby := by rw [s.settleSessionEnds_frame]

theorem State.running_of_link {s t : State} (h : t.link = s.link) :
    t.standby.running = s.standby.running := congrArg Link.running h

/-- The record named by an acknowledgement, with those ahead of it and those behind it (R89). -/
theorem retireThrough_some {seq : Fin 16} {l rest : List Sent} (h : retireThrough seq l = some rest) :
    ∃ front x, l = front ++ x :: rest ∧ x.seq = seq ∧ ∀ y ∈ front, y.seq ≠ seq := by
  induction l with
  | nil => cases h
  | cons y l ih =>
    unfold retireThrough at h
    split at h
    · cases h
      exact ⟨[], y, rfl, ‹_›, by simp⟩
    · obtain ⟨front, x, rfl, hx, hfront⟩ := ih h
      refine ⟨y :: front, x, rfl, hx, fun z hz => ?_⟩
      rcases List.mem_cons.mp hz with rfl | hz
      · assumption
      · exact hfront z hz

namespace PortInvariant

variable {P : State → Prop} {s : State}

/-! ### One port -/

theorem onPort (hP : PortInvariant P) {p : Port} {f : PortCtl → PortCtl} (hs : P s)
    (hmove : PortMove s.standby.running (s.port p) (s.queue p) (f (s.port p)) (s.queue p)) :
    P (s.onPort p f) := by
  rw [s.onPort_eq_withPort]
  exact hP.moved hs hmove

theorem turned (hP : PortInvariant P) {p : Port} {f : PortCtl → PortCtl} (hs : P s)
    (hrunning : s.standby.running = true) (hsession : (s.port p).session.Counts (f (s.port p)).session)
    (hdelivery : (f (s.port p)).delivery = (s.port p).delivery) : P (s.onPort p f) :=
  hP.onPort hs (.turned hrunning hsession hdelivery)

/-- A port's controller moves on with its session and its delivery as they are. -/
theorem quiet (hP : PortInvariant P) {p : Port} {f : PortCtl → PortCtl} (hs : P s)
    (hrunning : s.standby.running = true) (hsession : (f (s.port p)).session = (s.port p).session)
    (hdelivery : (f (s.port p)).delivery = (s.port p).delivery) : P (s.onPort p f) :=
  hP.turned hs hrunning (.inl hsession) hdelivery

theorem respond (hP : PortInvariant P) {p : Port} {body : List Byte} (hs : P s) :
    P (s.respond p body) := hP.onPort hs (.answered body)

theorem serving (hP : PortInvariant P) {p : Port} {h : Header} {body : List Byte} (hs : P s)
    (hrunning : s.standby.running = true) : P (s.serving p h body) :=
  hP.turned hs hrunning (by rw [PortCtl.serving_session]; exact Session.counts_reloaded _)
    (PortCtl.serving_delivery _ h body)

theorem teardown (hP : PortInvariant P) {p : Port} {cause : SessionEnd} (hs : P s) :
    P (s.teardown p cause) :=
  hP.frame (hP.moved hs (.tornDown cause)) rfl

theorem resync (hP : PortInvariant P) {p : Port} (hs : P s) (hrunning : s.standby.running = true)
    (hopen : (s.port p).session.isOpen = true) : P (s.resync p) :=
  hP.moved hs (.resynced hrunning hopen)

theorem placeFor_foldl (hP : PortInvariant P) {content : Content} {set : PortSet} (l : List Port)
    (hs : P s) : P (l.foldl (placeFor content set) s) := by
  induction l generalizing s with
  | nil => exact hs
  | cons p rest ih =>
    refine ih ?_
    unfold placeFor
    split
    · rw [s.onQueue_eq_withPort]
      exact hP.moved hs (.placed content)
    · exact hs

/-- The ticks of the four ack timers, one port after another. -/
theorem ticked (hP : PortInvariant P) (hs : P s) (hrunning : s.standby.running = true) :
    P { s with ports := s.ports.map PortCtl.ticked } := by
  have hall (l : List Port) : ∀ t, P t → t.standby.running = true →
      P (l.foldl (fun t p => t.onPort p PortCtl.ticked) t) := by
    induction l with
    | nil => exact fun t ht _ => ht
    | cons p rest ih =>
      exact fun t ht hr => ih _ (hP.onPort ht (.ticked hr)) hr
  exact hall Port.all s hs hrunning

/-! ### The lease -/

theorem endLease (hP : PortInvariant P) {cause : Option LeaseCause} (hs : P s) :
    P (s.endLease cause) := by
  have hended : P { s with lease := ⟨none, 0⟩ } := hP.leased _ hs (.inl rfl)
  rcases s.endLease_cases cause with ⟨-, h⟩ | ⟨p, -, -, h⟩ | ⟨p, c, -, -, h⟩ <;> rw [h]
  · exact hs
  · exact hP.frame hended rfl
  · exact hP.frame hended rfl

theorem takeSessionEnd (hP : PortInvariant P) {p : Port} (hs : P s) : P (s.takeSessionEnd p) := by
  unfold State.takeSessionEnd
  split
  · exact hP.endLease hs
  · exact hs

theorem settleSessionEnds (hP : PortInvariant P) {p : Port} (hs : P s) : P (s.settleSessionEnds p) := by
  unfold State.settleSessionEnds
  split
  · exact hP.takeSessionEnd (hP.frame hs rfl)
  · exact hs

theorem settleLeaseEnds (hP : PortInvariant P) (hs : P s) : P s.settleLeaseEnds :=
  hP.frame hs s.settleLeaseEnds_link

theorem leaseSecond (hP : PortInvariant P) (hs : P s) : P (leaseSecond s) := by
  unfold Machine.leaseSecond
  split
  · split
    · exact hs
    · split
      · exact hP.endLease hs
      · exact hP.frame hs rfl
  · exact hs

/-! ### The way of a request to its act -/

/-- What a request's act finds, in whatever phase: the port domain runs and, past the session gate, the
session is OPEN (R139, R165). -/
def ActKeeps (P : State → Prop) (p : Port) (gated : Bool) (act : State → State) : Prop :=
  ∀ t, P t → t.standby.running = true → (gated = true → (t.port p).session.isOpen = true) → P (act t)

theorem serve (hP : PortInvariant P) {p : Port} {h : Header} {body : List Byte}
    {lengthOk gated : Bool} {act : State → State} (hact : ActKeeps P p gated act) (hs : P s) :
    P (serve p h body lengthOk gated act s) := by
  rcases serve_cases p h body lengthOk gated act s with ⟨-, e⟩ | ⟨hl, -, e⟩ | ⟨⟨hl, -⟩, -, e⟩ |
    ⟨⟨hl, -⟩, -, k, -, e⟩ | ⟨⟨⟨hl, -⟩, -⟩, -, e⟩ | ⟨⟨⟨hl, -⟩, -⟩, -, -, -, e⟩ | ⟨⟨⟨hl, -⟩, -⟩, -, hg, e⟩ <;>
    rw [e]
  · exact hs
  all_goals have hrunning := State.running_of_listening hl
  · exact hP.quiet hs hrunning rfl rfl
  · exact hP.quiet hs hrunning (PortCtl.frameTaken_session _ _) (PortCtl.frameTaken_delivery _ _)
  · refine hP.turned hs hrunning ?_ (PortCtl.serving_delivery _ h body)
    show Session.Counts _ ((s.port p).serving h body).session
    rw [PortCtl.serving_session]
    exact Session.counts_reloaded _
  · exact hP.respond (hP.serving hs hrunning)
  · exact hP.respond (hP.serving hs hrunning)
  · refine hact _ (hP.serving hs hrunning) hrunning fun g => ?_
    rw [State.serving_port_self, PortCtl.serving_session, Session.reloaded_isOpen]
    exact hg g

theorem request (hP : PortInvariant P) {f : Phase} {p : Port} {h : Header} {body : List Byte}
    {lengthOk gated : Bool} {act : State → State} (hs : P s) (hact : ActKeeps P p gated act) :
    Answers P (.next (Machine.request f p h body lengthOk gated act s)) := by
  refine answers_next.mpr ?_
  cases f with
  | whole => exact hP.serve hact hs
  | accepted => exact hP.serve (fun _ ht _ _ => ht) hs
  | handedOn =>
    rcases request_handedOn_cases p h body lengthOk gated act s with e | ⟨hr, -, -, hg, e⟩ <;> rw [e]
    · exact hs
    · exact hact s hs hr hg

theorem whenNormal (hP : PortInvariant P) {p : Port} {act : State → State} (hact : P s → P (act s))
    (hs : P s) : P (whenNormal p act s) := by
  unfold Machine.whenNormal
  split
  · exact hact hs
  · exact hP.respond hs

theorem whenCurrent (hP : PortInvariant P) {p : Port} {body : List Byte}
    {act : Handle → Entry → State → State} (hact : ∀ n e, P s → P (act n e s)) (hs : P s) :
    P (Machine.whenNormal p (withCurrent p body act) s) := by
  refine hP.whenNormal (fun _ => ?_) hs
  rcases withCurrent_cases p body act s with e | ⟨n, x, -, e⟩ <;> rw [e]
  · exact hP.respond hs
  · exact hact n x hs

theorem asOwner (hP : PortInvariant P) {p : Port} {body : List Byte}
    {act : Handle → Entry → State → State} (hact : ∀ n e, P s → P (act n e s)) (hs : P s) :
    P (asOwner p body act s) := by
  rcases asOwner_cases p body act s with ⟨st, e⟩ | ⟨n, x, -, -, e⟩ <;> rw [e]
  · exact hP.respond hs
  · exact hact n x hs

theorem leaseGate (hP : PortInvariant P) {p : Port} {gated : Bool} {act : State → State}
    (hact : ∀ t, P t → t.standby.running = true → P (act t)) :
    ActKeeps P p gated (leaseGate p act) := by
  intro t ht hr _
  have hsettled := hP.settleSessionEnds (p := p) ht
  unfold Machine.leaseGate
  dsimp only
  split
  · exact hact _ hsettled (by rw [State.settleSessionEnds_standby]; exact hr)
  · exact hP.respond hsettled

theorem throughGate (hP : PortInvariant P) {p : Port} {gated : Bool} {act : State → State}
    (hact : ∀ t, P t → t.standby.running = true → P (act t)) :
    ActKeeps P p gated (throughGate p act) :=
  hP.leaseGate fun t ht hr =>
    hact _ (hP.settleLeaseEnds ht) ((State.running_of_link t.settleLeaseEnds_link).trans hr)

/-! ### The acts of requests at the Port Controller -/

theorem openAct (hP : PortInvariant P) {p : Port} {body : List Byte} (hs : P s)
    (hrunning : s.standby.running = true) : P (openAct p body s) := by
  cases hx : openSession body (s.port p).session.lastEnd with
  | none =>
    rw [openAct_of_none hx]
    exact hP.respond hs
  | some x =>
    rw [openAct_of_some hx]
    exact hP.respond (hP.moved hs (.opened hrunning body x hx))

theorem closeWith (hP : PortInvariant P) {p : Port} {h : Header} {body response : List Byte} (hs : P s)
    (hrunning : s.standby.running = true) : P (closeWith p h body response s) :=
  hP.quiet (hP.teardown hs) hrunning rfl rfl

theorem kickAct (hP : PortInvariant P) {p : Port} {h : Header} {body : List Byte} (hs : P s)
    (hrunning : s.standby.running = true) : P (kickAct p h body s) := by
  unfold Machine.kickAct
  split
  · exact hP.respond hs
  · split
    · exact hP.respond hs
    · split
      · exact hP.closeWith hs hrunning
      · exact hP.frame hs rfl

/-! ### The acts of requests at the Lease Unit and the Timebase -/

theorem acquireAct (hP : PortInvariant P) {p : Port} {body : List Byte} (hs : P s)
    (hrunning : s.standby.running = true) : P (acquireAct p body s) := by
  have ht := hP.settleSessionEnds (p := p) hs
  have hleased (lease : LeaseUnit) := hP.leased lease ht
    (.inr (by rw [State.settleSessionEnds_standby]; exact hrunning))
  unfold Machine.acquireAct
  dsimp only
  split
  · exact hP.respond ht
  · split
    · exact hP.respond (hleased _)
    · split
      · exact hP.respond (hleased _)
      · exact hP.respond ht

theorem breakLeaseAct (hP : PortInvariant P) {p : Port} (hs : P s) : P (breakLeaseAct p s) := by
  have ht := hP.settleSessionEnds (p := p) hs
  unfold Machine.breakLeaseAct
  dsimp only
  split
  · exact hP.respond ht
  · split
    · exact hP.respond ht
    · exact hP.respond (hP.endLease ht)

theorem renewAct (hP : PortInvariant P) {p : Port} {body : List Byte} (hs : P s) :
    P (renewAct p body s) := by
  unfold Machine.renewAct
  dsimp only
  split
  · exact hP.respond hs
  · exact hP.respond (hP.frame hs rfl)

theorem setTrimAct (hP : PortInvariant P) {p : Port} {body : List Byte} (hs : P s) :
    P (setTrimAct p body s) := by
  unfold Machine.setTrimAct
  dsimp only
  split
  · exact hP.respond (hP.frame hs rfl)
  · exact hP.respond hs

theorem stageAct (hP : PortInvariant P) {p : Port} {body : List Byte} (hs : P s)
    (hrunning : s.standby.running = true) : P (stageAct p body s) :=
  hP.respond (hP.quiet hs hrunning rfl rfl)

theorem commitEffect_link (p : Port) (mode : CommitMode) (staged : Nat) (s : State) :
    (commitEffect p mode staged s).1.link = s.link := by
  cases mode with
  | slew =>
    unfold commitEffect
    dsimp only
    split <;> rfl
  | _ => rfl

theorem commitAct (hP : PortInvariant P) {p : Port} {body : List Byte} (hs : P s)
    (hrunning : s.standby.running = true) : P (commitAct p body s) := by
  unfold Machine.commitAct
  split
  · exact hP.respond hs
  · rename_i mode staged _
    have hlink := commitEffect_link p mode staged s
    exact hP.respond (hP.quiet (hP.frame hs hlink) ((State.running_of_link hlink).trans hrunning) rfl rfl)

/-! ### The acts of entry requests -/

theorem place (hP : PortInvariant P) {i : SlotNo} {e : Entry} {ref : Reference} (hs : P s) :
    P (s.place i e ref) := hP.frame hs (s.place_link i e ref)

theorem createAct (hP : PortInvariant P) {p : Port} {body : List Byte} (hs : P s) :
    P (createAct p body s) := by
  refine hP.whenNormal (fun _ => ?_) hs
  split
  · exact hP.respond hs
  · split
    · exact hP.respond hs
    · split
      · exact hP.respond hs
      · exact hP.respond (hP.place hs)

theorem armEntry (hP : PortInvariant P) {p : Port} {body : List Byte} {n : Handle} {e : Entry}
    (hs : P s) : P (armEntry p body n e s) := by
  unfold Machine.armEntry
  split
  · exact hP.respond hs
  · split
    · exact hP.respond hs
    · split
      · exact hP.respond hs
      · dsimp only
        split
        · exact hP.respond (hP.place hs)
        · exact hP.respond hs

theorem suspendEntry (hP : PortInvariant P) {p : Port} {n : Handle} {e : Entry} (hs : P s) :
    P (suspendEntry p n e s) := by
  unfold Machine.suspendEntry
  split
  · exact hP.respond hs
  · exact hP.respond (hP.place hs)

theorem resumeEntry (hP : PortInvariant P) {p : Port} {n : Handle} {e : Entry} (hs : P s) :
    P (resumeEntry p n e s) := by
  unfold Machine.resumeEntry
  split
  · exact hP.respond hs
  · split
    · exact hP.respond hs
    · exact hP.respond (hP.place hs)

theorem deleteEntry (hP : PortInvariant P) {p : Port} {i : SlotNo} {body : List Byte} (hs : P s) :
    P ((s.freeSlot i).respond p body) := hP.respond (hP.frame hs rfl)

theorem queryEntry (hP : PortInvariant P) {p : Port} {body : List Byte} {n : Handle} {e : Entry}
    (hs : P s) : P (queryEntry p body n e s) := by
  unfold Machine.queryEntry
  split
  · exact hP.respond hs
  · exact hP.respond (hP.frame hs rfl)
  · exact hP.respond hs

theorem listAct (hP : PortInvariant P) {p : Port} {body : List Byte} (hs : P s) :
    P (listAct p body s) := by
  refine hP.whenNormal (fun _ => ?_) hs
  dsimp only
  split
  · exact hP.respond hs
  · split <;> exact hP.respond hs

theorem setQuotaAct (hP : PortInvariant P) {p : Port} {body : List Byte} (hs : P s) :
    P (setQuotaAct p body s) := by
  refine hP.whenNormal (fun _ => ?_) hs
  dsimp only
  split
  · exact hP.respond hs
  · split
    · exact hP.respond hs
    · split
      · exact hP.respond hs
      · split
        · exact hP.respond hs
        · split
          · exact hP.respond hs
          · exact hP.respond (hP.frame hs rfl)

theorem purgeEntry (hP : PortInvariant P) {p : Port} {n : Handle} {e : Entry} (hs : P s) :
    P (purgeEntry p n e s) := by
  unfold Machine.purgeEntry
  split
  · exact hP.respond hs
  · exact hP.respond (hP.frame hs rfl)

/-! ### Events at a port -/

theorem kickVerdict (hP : PortInvariant P) {k : KickMsg} {body : List Byte} (hs : P s) :
    P (kickVerdict k body s) := by
  unfold Machine.kickVerdict
  split
  · exact hP.respond hs
  · exact hs

theorem kickAtNamedPort (hP : PortInvariant P) {q : Port} (hs : P s) :
    Answers P (execKickAtNamedPort q s) := by
  refine answers_next.mpr ?_
  split
  · exact hs
  · dsimp only
    split
    · exact hP.kickVerdict (hP.teardown (hP.frame hs rfl))
    · exact hP.kickVerdict (hP.frame hs rfl)

/-- An oscillator second counts the keepalive down or tears the session down (R146). -/
theorem portSecond (hP : PortInvariant P) {p : Port} (hs : P s) : P (portSecond p s) := by
  unfold Machine.portSecond
  dsimp only
  split
  · rename_i hopen
    split
    · exact hs
    · exact hP.teardown hs
    · exact hP.turned hs hopen.1 (.inr ⟨hopen.2, _, rfl⟩) rfl
  · exact hs

theorem oscillatorSecond (hP : PortInvariant P) {sink : SecondSink} (hs : P s) :
    Answers P (execOscillatorSecond sink s) := by
  refine answers_next.mpr ?_
  cases sink with
  | lease => exact hP.leaseSecond (hP.frame hs rfl)
  | port p => exact hP.portSecond (hP.frame hs rfl)

theorem takeAck (hP : PortInvariant P) {p : Port} {seq : Fin 16} (hs : P s) : P (takeAck p seq s) := by
  unfold Machine.takeAck
  split
  · split
    · exact hs
    · rename_i hopen _ rest hrest
      obtain ⟨front, x, hflight, -⟩ := retireThrough_some hrest
      exact hP.moved hs (.acked hopen front x rest hflight)
  · exact hs

/-- An accepted frame that is not a request. -/
theorem acceptOther (hP : PortInvariant P) {p : Port} {bytes : List Byte} (hs : P s)
    (hrunning : s.standby.running = true) : P (acceptOther p bytes s) := by
  refine hP.turned hs hrunning ?_ (PortCtl.frameTaken_delivery _ bytes)
  show Session.Counts _ ((s.port p).frameTaken bytes).session.reloaded
  rw [PortCtl.frameTaken_session]
  exact Session.counts_reloaded _

theorem ack (hP : PortInvariant P) {p : Port} {h : Header} {body : List Byte} (hs : P s) :
    Answers P (execAck p h body s) := by
  refine answers_next.mpr ?_
  split
  · exact hs
  · rename_i hl
    have hrunning := State.running_of_listening (by simpa using hl)
    split
    · exact hP.quiet hs hrunning rfl rfl
    · exact hP.takeAck (hP.acceptOther hs hrunning)

theorem unusedFrame (hP : PortInvariant P) {p : Port} {cls : UnusedClass} {h : Header} {body : List Byte}
    (hs : P s) : Answers P (execUnusedFrame p cls h body s) := by
  refine answers_next.mpr ?_
  split
  · exact hs
  · rename_i hl
    have hrunning := State.running_of_listening (by simpa using hl)
    split
    · exact hP.quiet hs hrunning rfl rfl
    · exact hP.acceptOther hs hrunning

theorem gap (hP : PortInvariant P) {p : Port} (hs : P s) : Answers P (execGap p s) := by
  refine answers_next.mpr ?_
  split
  · split
    · exact hs
    · exact hP.quiet hs (State.running_of_listening ‹_›) rfl rfl
  · exact hs

theorem breakLine (hP : PortInvariant P) {p : Port} (hs : P s) : Answers P (execBreak p s) := by
  refine answers_next.mpr ?_
  split
  · have ht := hP.quiet (p := p)
      (f := fun c => { c.received (takeChar c.rx breakChar) with awaitMark := true }) hs
      (State.running_of_listening ‹_›) rfl rfl
    dsimp only
    split
    · exact hP.teardown ht
    · exact ht
  · exact hs

theorem receiveError (hP : PortInvariant P) {p : Port} {chars : List RxChar} (hs : P s) :
    Answers P (execReceiveError p chars s) := by
  refine answers_next.mpr ?_
  split
  · rename_i h
    exact hP.quiet hs (State.running_of_listening h.1) rfl rfl
  · exact hs

theorem frameHeader (hP : PortInvariant P) {p : Port} {data : Byte} (hs : P s) :
    Answers P (execFrameHeader p data s) := by
  refine answers_next.mpr ?_
  split
  · exact hP.quiet hs (State.running_of_listening ‹_›) rfl rfl
  · exact hs

theorem returnToMarking (hP : PortInvariant P) {p : Port} (hs : P s) :
    Answers P (execReturnToMarking p s) := by
  refine answers_next.mpr ?_
  split
  · exact hP.quiet hs ‹_› rfl rfl
  · exact hs

/-! ### Frames sent -/

theorem sampleRdy (hP : PortInvariant P) {p : Port} {rdy : Bool} (hs : P s) : P (s.sampleRdy p rdy) := by
  unfold State.sampleRdy
  split
  · rename_i h
    exact hP.quiet hs (Bool.and_eq_true_iff.mp h).1 rfl rfl
  · exact hs

theorem responseFrameStart (hP : PortInvariant P) {p : Port} {rdy : Bool} (hs : P s) :
    Answers P (execResponseFrameStart p rdy s) := by
  refine answers_next.mpr ?_
  have ht := hP.sampleRdy (p := p) (rdy := rdy) hs
  split
  · rename_i hchoice
    obtain ⟨⟨hrunning, -⟩, -⟩ := State.frameChoice_response_iff.mp hchoice
    exact hP.quiet ht hrunning rfl rfl
  · exact ht

theorem noticeFrameStart (hP : PortInvariant P) {p : Port} {rdy : Bool} (hs : P s) :
    Answers P (execNoticeFrameStart p rdy s) := by
  refine answers_next.mpr ?_
  have ht := hP.sampleRdy (p := p) (rdy := rdy) hs
  split
  · rename_i r hchoice
    obtain ⟨⟨hrunning, -⟩, -, hready, -, ⟨rest, hunsent⟩, hwindow⟩ :=
      State.frameChoice_fresh_iff.mp hchoice
    have hsent := hP.moved ht (.sent hrunning hready r rest hunsent hwindow
      (noticeFrame r ((s.sampleRdy p true).port p).delivery.nextSeq false))
    refine hP.frame hsent ?_
    unfold sendFresh
    rw [State.onQueue_onPort, hunsent]
    rfl
  · exact ht

theorem resendFrameStart (hP : PortInvariant P) {p : Port} {rdy : Bool} (hs : P s) :
    Answers P (execResendFrameStart p rdy s) := by
  refine answers_next.mpr ?_
  have ht := hP.sampleRdy (p := p) (rdy := rdy) hs
  split
  · rename_i hchoice
    obtain ⟨⟨hrunning, -⟩, -⟩ := State.frameChoice_resend_iff.mp hchoice
    exact hP.moved ht (.resent hrunning _)
  · exact ht

theorem endOfService (hP : PortInvariant P) {p : Port} (hs : P s) : Answers P (execEndOfService p s) := by
  refine answers_next.mpr ?_
  split
  · rename_i frame inService _
    refine hP.onPort hs (.freed _ ?_)
    cases inService
    · exact .inr rfl
    · exact .inl rfl
  · exact hs

theorem noticeFrameEnd (hP : PortInvariant P) {p : Port} (hs : P s) :
    Answers P (execNoticeFrameEnd p s) := by
  refine answers_next.mpr ?_
  split
  · exact hP.onPort hs (.freed _ (.inr rfl))
  · exact hs

theorem tenMsTick (hP : PortInvariant P) (hs : P s) : Answers P (execTenMsTick s) := by
  refine answers_next.mpr ?_
  split
  · exact hP.ticked (hP.frame hs rfl) ‹_›
  · exact hP.frame hs rfl

theorem ackTimeout (hP : PortInvariant P) {p : Port} (hs : P s) : Answers P (execAckTimeout p s) := by
  refine answers_next.mpr ?_
  split
  · rename_i hexpired
    split
    · exact hP.moved hs (.round hexpired.1 hexpired.2 _)
    · exact hP.moved hs (.stalled hexpired.1 hexpired.2)
  · exact hs

/-! ### Events of the Schedule Table -/

theorem firingClaim (hP : PortInvariant P) (hs : P s) : Answers P (execFiringClaim s) := by
  refine answers_next.mpr ?_
  split
  · exact hs
  · dsimp only
    split
    · exact hP.frame hs rfl
    · split
      · exact hP.frame hs (applyFiring_link _ _ _)
      · exact hP.frame hs rfl

theorem resultClaim (hP : PortInvariant P) (hs : P s) : Answers P (execResultClaim s) := by
  refine answers_next.mpr ?_
  split
  · exact hs
  · dsimp only
    split
    · exact hP.frame hs rfl
    · split
      · exact hP.frame hs (applyResult_link _ _ _)
      · exact hP.frame hs rfl

theorem searchRunComplete (hP : PortInvariant P) (hs : P s) : Answers P (execSearchRunComplete s) := by
  refine answers_next.mpr ?_
  split
  · split
    · exact hs
    · exact hP.frame hs rfl
  · exact hs

theorem stepClaim (hP : PortInvariant P) (hs : P s) : Answers P (execStepClaim s) := by
  refine answers_next.mpr ?_
  split
  · exact hs
  · split
    · exact hs
    · split
      · exact hP.frame hs rfl
      · exact hs

theorem rescanVisit (hP : PortInvariant P) (hs : P s) : Answers P (execRescanVisit s) := by
  refine answers_next.mpr ?_
  split
  · exact hs
  · split
    · dsimp only
      split
      · exact hP.frame hs (visitEntry_link _ _ _ s)
      · exact hP.frame hs rfl
    · exact hs

theorem rescanEnd (hP : PortInvariant P) (hs : P s) : Answers P (execRescanEnd s) := by
  refine answers_next.mpr ?_
  split
  · exact hs
  · split
    · exact hP.frame hs (releaseEntries_foldl_link s.table.heldReleases s.looksLost)
    · exact hs

theorem epochEndClaim (hP : PortInvariant P) (hs : P s) : Answers P (execEpochEndClaim s) := by
  refine answers_next.mpr ?_
  split
  · exact hs
  · split
    · exact hs
    · exact hP.frame hs (epochEndSlot_foldl_link _ _)

theorem releaseClaim (hP : PortInvariant P) {p : Port} (hs : P s) : Answers P (execReleaseClaim p s) := by
  refine answers_next.mpr ?_
  split
  · dsimp only
    split
    · exact hP.frame hs (State.releaseEntries_link _ p)
    · exact hP.frame hs rfl
  · exact hs

theorem look (hP : PortInvariant P) {src : LookSource} (hs : P s) : Answers P (execLook src s) := by
  refine answers_next.mpr ?_
  split
  · exact hs
  · exact hP.frame hs (lookAt_link _ _)

/-! ### Every command and every step -/

theorem exec (hP : PortInvariant P) (c : Instr) (s : State) (hs : P s) : Answers P (exec c s) := by
  cases c with
  | openReq p h a f => exact hP.request hs fun _ ht hr _ => hP.openAct ht hr
  | closeReq p h a f => exact hP.request hs fun _ ht hr _ => hP.closeWith ht hr
  | pingReq p h a f => exact hP.request hs fun _ ht _ _ => hP.respond ht
  | statusReq p h a f =>
    exact hP.request hs fun _ ht hr _ => hP.quiet (hP.respond ht) hr rfl rfl
  | resyncReq p h a f => exact hP.request hs fun _ ht hr hopen => hP.respond (hP.resync ht hr (hopen rfl))
  | readTime p h a f => exact hP.request hs fun _ ht _ _ => hP.respond ht
  | stageTime p h a f => exact hP.request hs fun _ ht hr _ => hP.stageAct ht hr
  | commitTime p h a f => exact hP.request hs (hP.throughGate fun _ => hP.commitAct)
  | cancelCommit p h a f =>
    exact hP.request hs (hP.throughGate fun _ ht _ => hP.respond (hP.frame ht rfl))
  | readTrim p h a f => exact hP.request hs fun _ ht _ _ => hP.respond ht
  | setTrim p h a f => exact hP.request hs (hP.throughGate fun _ ht _ => hP.setTrimAct ht)
  | acquire p h a f => exact hP.request hs fun _ ht hr _ => hP.acquireAct ht hr
  | renew p h a f => exact hP.request hs (hP.leaseGate fun _ ht _ => hP.renewAct ht)
  | release p h a f => exact hP.request hs (hP.leaseGate fun _ ht _ => hP.respond (hP.endLease ht))
  | create p h a f => exact hP.request hs fun _ ht _ _ => hP.createAct ht
  | arm p h a f => exact hP.request hs fun _ ht _ _ => hP.asOwner (fun _ _ => hP.armEntry) ht
  | suspend p h a f => exact hP.request hs fun _ ht _ _ => hP.asOwner (fun _ _ => hP.suspendEntry) ht
  | resume p h a f => exact hP.request hs fun _ ht _ _ => hP.asOwner (fun _ _ => hP.resumeEntry) ht
  | delete p h a f => exact hP.request hs fun _ ht _ _ => hP.asOwner (fun _ _ => hP.deleteEntry) ht
  | query p h a f => exact hP.request hs fun _ ht _ _ => hP.whenCurrent (fun _ _ => hP.queryEntry) ht
  | list p h a f => exact hP.request hs fun _ ht _ _ => hP.listAct ht
  | kick p h a f => exact hP.request hs fun _ ht hr _ => hP.kickAct ht hr
  | kickAtNamedPort q => exact hP.kickAtNamedPort hs
  | setQuota p h a f => exact hP.request hs fun _ ht _ _ => hP.setQuotaAct ht
  | breakLease p h a f => exact hP.request hs fun _ ht _ _ => hP.breakLeaseAct ht
  | purge p h a f => exact hP.request hs fun _ ht _ _ => hP.whenCurrent (fun _ _ => hP.purgeEntry) ht
  | unknownRequest p h body =>
    refine answers_next.mpr ?_
    split
    · exact hP.serve (fun _ ht _ _ => hP.respond ht) hs
    · exact hs
  | overrun p h body =>
    refine answers_next.mpr ?_
    split
    · exact hP.serve (fun _ ht _ _ => ht) hs
    · exact hs
  | ack p h body => exact hP.ack hs
  | unusedFrame p cls h body => exact hP.unusedFrame hs
  | receiveError p chars => exact hP.receiveError hs
  | gap p => exact hP.gap hs
  | breakLine p => exact hP.breakLine hs
  | responseFrameStart p rdy => exact hP.responseFrameStart hs
  | noticeFrameStart p rdy => exact hP.noticeFrameStart hs
  | resendFrameStart p rdy => exact hP.resendFrameStart hs
  | endOfService p => exact hP.endOfService hs
  | tuAdvance =>
    exact answers_next.mpr (hP.frame hs ((takeAdvance_link _).trans (countAdvance_link s)))
  | trimWindowStart => exact answers_next.mpr (hP.frame hs rfl)
  | oscillatorSecond sink => exact hP.oscillatorSecond hs
  | leaseExpiry =>
    refine answers_next.mpr ?_
    split
    · exact hP.leaseSecond (hP.frame hs rfl)
    · exact hs
  | keepaliveTimeout p =>
    refine answers_next.mpr ?_
    split
    · exact hP.portSecond (hP.frame hs rfl)
    · exact hs
  | tenMsTick => exact hP.tenMsTick hs
  | ackTimeout p => exact hP.ackTimeout hs
  | look src => exact hP.look hs
  | firingClaim => exact hP.firingClaim hs
  | wakeRequest =>
    refine answers_next.mpr ?_
    split
    · exact hs
    · exact hP.frame (hP.woken hs) rfl
  | noticeTaken src =>
    refine answers_next.mpr ?_
    split
    · exact hs
    · exact hP.placeFor_foldl _ (hP.frame hs rfl)
  | searchRunComplete => exact hP.searchRunComplete hs
  | resultClaim => exact hP.resultClaim hs
  | stepClaim => exact hP.stepClaim hs
  | rescanVisit => exact hP.rescanVisit hs
  | rescanEnd => exact hP.rescanEnd hs
  | epochEndClaim => exact hP.epochEndClaim hs
  | leaseEndClaim =>
    refine answers_next.mpr ?_
    split
    · exact hs
    · exact hP.frame hs (State.takeLeaseEnd_link _ _)
  | sessionEndClaim p =>
    refine answers_next.mpr ?_
    split
    · exact hP.takeSessionEnd (hP.frame hs rfl)
    · exact hs
  | releaseClaim p => exact hP.releaseClaim hs
  | pf asserted straps point =>
    refine answers_next.mpr ?_
    cases point with
    | filtered => exact hP.inputs _ _ _ _ (hP.frame hs rfl)
    | pin => exact hP.frame hs rfl
  | rst asserted straps point =>
    refine answers_next.mpr ?_
    cases point with
    | filtered => exact hP.inputs _ _ _ _ (hP.frame hs rfl)
    | pin => exact hP.frame hs rfl
  | vddLoss => exact answers_next.mpr (hP.inputs _ _ _ _ hs)
  | vddGood straps => exact answers_next.mpr (hP.inputs _ _ _ straps hs)
  | coldStart pf rst good => exact hP.cold s pf rst good
  | noticeFrameEnd p => exact hP.noticeFrameEnd hs
  | frameHeader p data => exact hP.frameHeader hs
  | returnToMarking p => exact hP.returnToMarking hs

/-- A law that every move of a port, of the lease and of the port domain keeps is kept by every step. -/
theorem keptByStep (hP : PortInvariant P) : KeptByStep P :=
  keptByStep_of_exec (fun _ _ hs => hP.frame hs rfl) hP.exec fun _ hs => hP.frame hs rfl

end PortInvariant

end Sys2Proof.Machine
end

section
/-! PROOFS. Every step keeps a Notice Queue free of two unsent firings of one handle (O11). -/

namespace Sys2Proof.Machine

/-- Coalescing does not change which handles the records of a list are of. -/
theorem coalesceFirst_handles {h : Handle} {missed : Bool} {count : Nat} {isFinal : Bool}
    {l l' : List Record} (e : coalesceFirst h missed count isFinal l = some l') :
    l'.filterMap (·.firingHandle) = l.filterMap (·.firingHandle) := by
  obtain ⟨front, r, back, rfl, -, -, rfl⟩ := coalesceFirst_some e
  simp [List.filterMap_cons]

/-- The record a notice becomes is of none of the handles already there, where it cannot coalesce. -/
theorem NoticeQueue.handle_notMem_of_tryCoalesce {q : NoticeQueue} {c : Content} {loss : Bool} {n : Handle}
    (hnone : q.tryCoalesce c = none) (hn : (⟨c, loss⟩ : Record).firingHandle = some n) :
    n ∉ q.unsent.filterMap (·.firingHandle) := by
  cases c with
  | firing missed m tag due count late isFinal =>
    cases hn
    rw [mem_filterMap_firingHandle, not_not]
    exact firingsOf_eq_nil fun r hr =>
      Record.firesFor_eq_false_iff.mp (coalesceFirst_none.mp hnone r hr)
  | _ => cases hn

/-- A placed notice coalesces, joins as the first of its handle, or is lost (R83). -/
theorem NoticeQueue.placeNotice_coalesced {q : NoticeQueue} (hq : Coalesced q.unsent) (c : Content) :
    Coalesced (q.placeNotice c).unsent := by
  rcases q.placeNotice_cases c with ⟨u, hu, e⟩ | ⟨hnone, -, e⟩ | ⟨-, -, e⟩ <;> rw [e]
  · cases c with
    | firing missed m tag due count late isFinal =>
      unfold Coalesced
      rw [coalesceFirst_handles hu]
      exact hq
    | _ => cases hu
  · unfold Coalesced
    rw [List.filterMap_append]
    refine List.Nodup.append hq ?_ ?_
    · cases h : (⟨c, q.loss⟩ : Record).firingHandle <;> simp [h]
    · intro n hn hc
      obtain ⟨r, hr, hfires⟩ := List.mem_filterMap.mp hc
      rw [List.mem_singleton.mp hr] at hfires
      exact NoticeQueue.handle_notMem_of_tryCoalesce hnone hfires hn
  · exact hq

theorem coalescingLaw_invariant : PortInvariant CoalescingLaw where
  frame hs h p := by
    have hqueue := congrArg (fun x : Link => x.queues.get p) h
    exact (congrArg (fun q : NoticeQueue => Coalesced q.unsent) hqueue).mpr (hs p)
  moved := by
    intro s p c q hs hmove r
    rw [State.withPort_queue]
    split
    · have hp : Coalesced (s.queue p).unsent := hs p
      cases hmove with
      | opened hr body x hx => exact NoticeQueue.returnToUnsent_coalesced _
      | resynced hr hopen => exact NoticeQueue.returnToUnsent_coalesced _
      | tornDown cause => exact NoticeQueue.returnToUnsent_coalesced _
      | placed content => exact NoticeQueue.placeNotice_coalesced hp content
      | sent hr hready x rest hunsent hwindow frame =>
        rw [hunsent] at hp
        exact hp.sublist ((List.sublist_cons_self x rest).filterMap _)
      | _ => exact hp
    · exact hs r
  leased _ hs _ := hs
  woken hs := hs
  inputs pf rst good straps hs p := by
    rcases State.inputs_cases _ pf rst good straps with ⟨-, -, e⟩ | ⟨-, -, e⟩ | ⟨-, -, e⟩ | ⟨-, -, e⟩ <;>
      rw [e]
    · rw [State.holdDomain_queue]
      exact NoticeQueue.returnToUnsent_coalesced _
    all_goals exact hs p
  cold s pf rst good := by
    have hcold : CoalescingLaw (State.cold s.pending s.freeIndex pf rst good.isSome (good.getD s.pins)) :=
      fun p => by rw [State.cold_queue]; exact List.nodup_nil
    refine answers_next.mpr ?_
    split
    · split <;> exact hcold
    · exact hcold

/-- Settles O11: a notice coalesces with the unsent firing of its handle
(`NoticeQueue.placeNotice_coalesced`), the return to unsent leaves one firing of each handle
(`NoticeQueue.returnToUnsent_coalesced`), and no other move of a port adds an unsent record. -/
theorem coalescingLawKept : Obligations.CoalescingLawKept := coalescingLaw_invariant.keptByStep

end Sys2Proof.Machine
end

section
/-! PROOFS. Every step keeps the laws of sessions, delivery, Notice Queues and the held port domain
(O12). -/

namespace Sys2Proof.Machine

/-! ### The sequences of the records in flight (R87) -/

/-- The records in flight carry the consecutive sequences before the next one. -/
def Sequenced (l : List Sent) (next : Fin 16) : Prop :=
  ∀ k (hk : k < l.length), (l[k]).seq + Fin.ofNat 16 (l.length - k) = next

theorem Sequenced.nil (next : Fin 16) : Sequenced [] next := nofun

theorem Fin.ofNat_succ (n : Nat) : Fin.ofNat 16 (n + 1) = Fin.ofNat 16 n + 1 := by
  ext; simp [Fin.val_add]

/-- A record sent takes the next sequence. -/
theorem Sequenced.snoc {l : List Sent} {next : Fin 16} (h : Sequenced l next) (r : Record)
    (marked : Bool) : Sequenced (l ++ [⟨r, next, marked⟩]) (next + 1) := by
  intro k hk
  rw [List.length_append, List.length_singleton] at hk ⊢
  rcases Nat.lt_or_ge k l.length with hlt | hge
  · rw [List.getElem_append_left hlt, show l.length + 1 - k = l.length - k + 1 by omega,
      Fin.ofNat_succ, ← add_assoc, h k hlt]
  · rw [List.getElem_append_right hge, show l.length + 1 - k = 1 by omega, List.getElem_singleton]
    rfl

/-- The records behind a retired one keep theirs. -/
theorem Sequenced.behind {front rest : List Sent} {next : Fin 16} (h : Sequenced (front ++ rest) next) :
    Sequenced rest next := by
  intro k hk
  have hlen : front.length + k < (front ++ rest).length := by rw [List.length_append]; omega
  have hk' := h (front.length + k) hlen
  rw [List.getElem_append_right (by omega), List.length_append] at hk'
  rw [← hk']
  congr 2
  · simp
  · omega

/-- The sequences alone decide it. -/
theorem Sequenced.of_seqs {l l' : List Sent} {next : Fin 16} (h : Sequenced l next)
    (hseqs : l'.map (·.seq) = l.map (·.seq)) : Sequenced l' next := by
  have hlen : l'.length = l.length := by simpa using congrArg List.length hseqs
  intro k hk
  have hk' : k < l.length := hlen ▸ hk
  have hseq : (l'[k]).seq = (l[k]).seq := by
    have := congrArg (·[k]?) hseqs
    simpa [hk, hk'] using this
  rw [hseq, hlen]
  exact h k hk'

theorem unmarkFirst_seqs (l : List Sent) : (unmarkFirst l).map (·.seq) = l.map (·.seq) := by
  induction l with
  | nil => rfl
  | cons x rest ih =>
    unfold unmarkFirst
    split
    · rfl
    · simp [ih]

/-- A re-send removes a mark and sets none. -/
theorem marked_of_mem_unmarkFirst {l : List Sent} {x : Sent} (hx : x ∈ unmarkFirst l)
    (hm : x.marked = true) : ∃ y ∈ l, y.marked = true := by
  induction l with
  | nil => cases hx
  | cons y rest ih =>
    unfold unmarkFirst at hx
    split at hx
    · exact ⟨y, List.mem_cons_self, ‹_›⟩
    · rcases List.mem_cons.mp hx with rfl | hx
      · exact ⟨x, List.mem_cons_self, hm⟩
      · obtain ⟨z, hz, hmz⟩ := ih hx
        exact ⟨z, List.mem_cons_of_mem y hz, hmz⟩

/-! ### The laws of one port -/

/-- A session's options in range, and at their defaults while CLOSED (R138). -/
structure Session.Lawful (x : Session) : Prop where
  options : 1 ≤ x.window ∧ x.window ≤ 4 ∧ 1 ≤ x.ackTimeout ∧ x.ackTimeout ≤ 255 ∧ x.retryLimit ≤ 7 ∧
    x.keepalive ≤ 255
  closed : x.isOpen = false → x = Session.closed x.lastEnd

/-- Delivery beside its session's state and its records in flight (R86, R87, R90, R91). -/
structure Delivery.Lawful (d : Delivery) (isOpen : Bool) (inFlight : List Sent) : Prop where
  closed : d.state = .closed ↔ isOpen = false
  empty : d.state = .closed → inFlight = []
  sequences : Sequenced inFlight d.nextSeq
  timer : d.timer.isSome = true ↔ d.state = .ready ∧ inFlight ≠ []
  marks : d.state ≠ .ready → ∀ x ∈ inFlight, x.marked = false

/-- A port's items while the port domain is held (R149, R170). -/
structure PortCtl.Held (c : PortCtl) : Prop where
  session : c.session.isOpen = false
  service : c.service = none
  tx : c.tx = .free
  rx : c.rx = .hunt
  cache : c.cache = none
  staging : c.staging = Staging.absent
  delivery : c.delivery = Delivery.atReset

/-- The laws of one port's controller and Notice Queue. -/
structure PortLaw (running : Bool) (c : PortCtl) (q : NoticeQueue) : Prop where
  held : running = false → c.Held
  session : c.session.Lawful
  delivery : c.delivery.Lawful c.session.isOpen q.inFlight
  room : q.size ≤ Config.queueRoom
  window : q.inFlight.length ≤ c.session.window

/-! ### Sessions -/

theorem Session.closed_lawful (cause : SessionEnd) : (Session.closed cause).Lawful where
  options := show 1 ≤ 2 ∧ 2 ≤ 4 ∧ 1 ≤ 50 ∧ 50 ≤ 255 ∧ 3 ≤ 7 ∧ 0 ≤ 255 by decide
  closed _ := rfl

theorem Session.Lawful.counts {x y : Session} (hx : x.Lawful) (h : x.Counts y) : y.Lawful := by
  rcases h with rfl | ⟨hopen, n, rfl⟩
  · exact hx
  · exact ⟨hx.options, fun hclosed => absurd (hopen.symm.trans hclosed) (by decide)⟩

theorem Session.Counts.isOpen {x y : Session} (h : x.Counts y) : y.isOpen = x.isOpen := by
  rcases h with rfl | ⟨-, n, rfl⟩ <;> rfl

theorem Session.Counts.window {x y : Session} (h : x.Counts y) : y.window = x.window := by
  rcases h with rfl | ⟨-, n, rfl⟩ <;> rfl

/-- An option of OPEN is a character or a default that fits one. -/
theorem openOption_le (body : List Byte) (bit pos : Nat) {default : Nat} (hd : default ≤ 255) :
    openOption body bit pos default ≤ 255 := by
  unfold openOption
  split
  · exact Nat.le_of_lt_succ (byteAt body pos).isLt
  · exact hd

/-- The session an OPEN asks for is OPEN and lawful, and keeps the last session end (R140). -/
theorem openSession_lawful {body : List Byte} {lastEnd : SessionEnd} {x : Session}
    (h : openSession body lastEnd = some x) : x.isOpen = true ∧ x.Lawful := by
  unfold openSession at h
  dsimp only at h
  split at h
  · rename_i hrange
    obtain ⟨hw1, hw4, ha, hr, -⟩ := hrange
    cases h
    exact ⟨rfl, ⟨hw1, hw4, ha, openOption_le body 1 3 (by decide), hr,
      openOption_le body 3 5 (by decide)⟩, nofun⟩
  · cases h

/-! ### Delivery -/

theorem Delivery.atReset_lawful : Delivery.atReset.Lawful false [] where
  closed := iff_of_true rfl rfl
  empty _ := rfl
  sequences := .nil _
  timer := by simp [Delivery.atReset]
  marks _ := by simp

/-- A delivery started anew (R94, R141). -/
theorem Delivery.fresh_lawful : (⟨.ready, 0, 0, none⟩ : Delivery).Lawful true [] where
  closed := by simp
  empty := nofun
  sequences := .nil _
  timer := by simp
  marks h := absurd rfl h

section Delivery

variable {d : Delivery} {isOpen : Bool} {inFlight : List Sent}

/-- The timer of an OPEN session's delivery with a record left after an ACK. -/
theorem Delivery.Lawful.acked {front rest : List Sent} {x : Sent}
    (h : d.Lawful true (front ++ x :: rest)) : (d.acked (!rest.isEmpty)).Lawful true rest where
  closed := h.closed
  empty hstate := absurd (h.closed.mp hstate) (by decide)
  sequences := by
    have hsequences := h.sequences
    rw [← List.singleton_append, ← List.append_assoc] at hsequences
    exact hsequences.behind
  timer := by
    have htimer := h.timer
    cases rest with
    | nil => simp [Delivery.acked]
    | cons y rest =>
      by_cases hready : d.state = .ready
      · simp [Delivery.acked, hready]
      · simpa [Delivery.acked, hready] using htimer
  marks hready y hy := h.marks hready y (by simp [hy])

/-- A record sent in READY. -/
theorem Delivery.Lawful.sent (h : d.Lawful isOpen inFlight) (hready : d.state = .ready) (r : Record) :
    ({ d with
        nextSeq := d.nextSeq + 1
        timer := if inFlight.isEmpty then some 0 else d.timer } : Delivery).Lawful isOpen
      (inFlight ++ [⟨r, d.nextSeq, false⟩]) where
  closed := h.closed
  empty hstate := absurd (hready.symm.trans hstate) (by decide)
  sequences := h.sequences.snoc r false
  timer := by
    have htimer := h.timer
    cases inFlight with
    | nil => simp [hready]
    | cons x rest => simpa [hready] using htimer
  marks hne := absurd hready hne

/-- The records in flight given marks, or rid of them, and the timer running on, in READY. -/
theorem Delivery.Lawful.remarked {inFlight' : List Sent} {n retries : Nat}
    (h : d.Lawful isOpen inFlight) (hready : d.state = .ready) (hne : inFlight ≠ [])
    (hseqs : inFlight'.map (·.seq) = inFlight.map (·.seq)) :
    ({ d with retries, timer := some n } : Delivery).Lawful isOpen inFlight' where
  closed := h.closed
  empty hstate := absurd (hready.symm.trans hstate) (by decide)
  sequences := h.sequences.of_seqs hseqs
  timer := by
    have hne' : inFlight' ≠ [] := by
      rintro rfl
      exact hne (by simpa using hseqs.symm)
    simp [hready, hne']
  marks hstate := absurd hready hstate

/-- A stalled delivery, with every mark removed (R93). -/
theorem Delivery.Lawful.stalled {inFlight' : List Sent} (h : d.Lawful isOpen inFlight)
    (hready : d.state = .ready) (hseqs : inFlight'.map (·.seq) = inFlight.map (·.seq))
    (hmarks : ∀ x ∈ inFlight', x.marked = false) :
    ({ d with state := .stalled, timer := none } : Delivery).Lawful isOpen inFlight' where
  closed := by
    have hclosed := h.closed
    rw [hready] at hclosed
    exact ⟨nofun, fun hopen => absurd (hclosed.mpr hopen) (by decide)⟩
  empty := nofun
  sequences := h.sequences.of_seqs hseqs
  timer := by simp
  marks _ := hmarks

end Delivery

/-! ### The moves of one port -/

theorem not_held {running : Bool} (hrunning : running = true) {c : PortCtl} :
    running = false → c.Held := fun h => absurd (hrunning.symm.trans h) (by decide)

theorem openQueue_size (body : List Byte) (q : NoticeQueue) : (openQueue body q).size ≤ q.size := by
  unfold openQueue
  split
  · exact Nat.zero_le _
  · exact Nat.le_refl _

theorem NoticeQueue.placeNotice_size {q : NoticeQueue} (hq : q.size ≤ Config.queueRoom) (c : Content) :
    (q.placeNotice c).size ≤ Config.queueRoom := by
  rcases q.placeNotice_cases c with ⟨u, hu, e⟩ | ⟨-, hroom, e⟩ | ⟨-, -, e⟩ <;> rw [e]
  · have hlen : u.length = q.unsent.length := by
      cases c with
      | firing missed n tag due count late isFinal => exact coalesceFirst_length hu
      | _ => cases hu
    unfold NoticeQueue.size at hq ⊢
    rwa [hlen]
  · unfold NoticeQueue.size at hroom ⊢
    simp only [List.length_append, List.length_singleton]
    omega
  · exact hq

/-- An expired timer runs in READY. -/
theorem PortCtl.timerExpired_iff {c : PortCtl} : c.timerExpired = true ↔
    c.delivery.state = .ready ∧ ∃ n, c.delivery.timer = some n ∧ c.session.ackTimeout ≤ n := by
  unfold PortCtl.timerExpired
  cases c.delivery.timer <;> simp

namespace PortLaw

variable {running : Bool} {c c' : PortCtl} {q q' : NoticeQueue}

/-- A port whose records are returned to unsent, with a lawful session and delivery. -/
theorem returned (hheld : running = false → c.Held) (hsession : c.session.Lawful)
    (hdelivery : c.delivery.Lawful c.session.isOpen []) (hsize : q.size ≤ Config.queueRoom) :
    PortLaw running c q.returnToUnsent where
  held := hheld
  session := hsession
  delivery := hdelivery
  room := q.returnToUnsent_size.trans hsize
  window := Nat.zero_le _

theorem turned (h : PortLaw running c q) (hrunning : running = true)
    (hsession : c.session.Counts c'.session) (hdelivery : c'.delivery = c.delivery) :
    PortLaw running c' q where
  held := not_held hrunning
  session := h.session.counts hsession
  delivery := by rw [hdelivery, hsession.isOpen]; exact h.delivery
  room := h.room
  window := by rw [hsession.window]; exact h.window

theorem tornDown (h : PortLaw running c q) (cause : SessionEnd) :
    PortLaw running (c.tornDown cause) q.returnToUnsent := by
  refine returned (fun hr => ?_) (Session.closed_lawful cause) Delivery.atReset_lawful h.room
  have hc := h.held hr
  exact ⟨rfl, rfl, by unfold PortCtl.tornDown; rw [hc.tx], hc.rx, rfl, rfl, rfl⟩

/-- The laws of one port speak of these items of its controller alone. -/
theorem of_same (h : PortLaw running c q) (hheld : running = false → c'.Held)
    (hsession : c'.session = c.session) (hdelivery : c'.delivery = c.delivery) :
    PortLaw running c' q where
  held := hheld
  session := by rw [hsession]; exact h.session
  delivery := by rw [hdelivery, hsession]; exact h.delivery
  room := h.room
  window := by rw [hsession]; exact h.window

theorem answered (h : PortLaw running c q) (body : List Byte) : PortLaw running (c.respond body) q := by
  refine h.of_same (fun hr => ?_) rfl rfl
  have hc := h.held hr
  exact ⟨hc.session, by unfold PortCtl.respond; rw [hc.service]; rfl, hc.tx, hc.rx, hc.cache, hc.staging,
    hc.delivery⟩

theorem freed (h : PortLaw running c q) {service : Option Service}
    (hservice : service = none ∨ service = c.service) :
    PortLaw running { c with tx := .free, service } q := by
  refine h.of_same (fun hr => ?_) rfl rfl
  have hc := h.held hr
  exact ⟨hc.session, hservice.elim id (·.trans hc.service), rfl, hc.rx, hc.cache, hc.staging, hc.delivery⟩

theorem placed (h : PortLaw running c q) (content : Content) :
    PortLaw running c (q.placeNotice content) where
  held := h.held
  session := h.session
  delivery := by rw [NoticeQueue.placeNotice_inFlight]; exact h.delivery
  room := NoticeQueue.placeNotice_size h.room content
  window := by rw [NoticeQueue.placeNotice_inFlight]; exact h.window

theorem acked (h : PortLaw running c q) (hopen : c.session.isOpen = true) {front rest : List Sent}
    {x : Sent} (hflight : q.inFlight = front ++ x :: rest) :
    PortLaw running { c with delivery := c.delivery.acked (!rest.isEmpty) } { q with inFlight := rest } := by
  obtain ⟨hheld, hsession, hdelivery, hroom, hwindow⟩ := h
  unfold NoticeQueue.size at hroom
  rw [hflight] at hdelivery hroom hwindow
  simp only [List.length_append, List.length_cons] at hroom hwindow
  refine ⟨fun hr => ?_, hsession, ?_, ?_, ?_⟩
  · exact absurd (hopen.symm.trans (hheld hr).session) (by decide)
  · rw [hopen] at hdelivery ⊢
    exact hdelivery.acked
  · unfold NoticeQueue.size
    dsimp only
    omega
  · dsimp only
    omega

theorem sent (h : PortLaw running c q) (hrunning : running = true)
    (hready : c.delivery.state = .ready) {r : Record} {rest : List Record} (hunsent : q.unsent = r :: rest)
    (hwindow : q.inFlight.length < c.session.window) (frame : List Byte) :
    PortLaw running
      { c with
        delivery := { c.delivery with
          nextSeq := c.delivery.nextSeq + 1
          timer := if q.inFlight.isEmpty then some 0 else c.delivery.timer }
        tx := .notice frame }
      { q with inFlight := q.inFlight ++ [⟨r, c.delivery.nextSeq, false⟩], unsent := rest } where
  held := not_held hrunning
  session := h.session
  delivery := h.delivery.sent hready r
  room := by
    have hroom := h.room
    unfold NoticeQueue.size at hroom ⊢
    rw [hunsent] at hroom
    simp only [List.length_append, List.length_cons, List.length_nil] at hroom ⊢
    omega
  window := by simpa using hwindow

/-- The records in flight marked anew, one by one (R88, R91). -/
theorem remarked (h : PortLaw running c q) (hrunning : running = true) {inFlight' : List Sent}
    {d : Delivery} (hd : d.Lawful c.session.isOpen inFlight')
    (hseqs : inFlight'.map (·.seq) = q.inFlight.map (·.seq)) (tx : Transmitter) :
    PortLaw running { c with delivery := d, tx } { q with inFlight := inFlight' } := by
  have hlen : inFlight'.length = q.inFlight.length := by simpa using congrArg List.length hseqs
  refine ⟨not_held hrunning, h.session, hd, ?_, ?_⟩
  · unfold NoticeQueue.size
    dsimp only
    rw [hlen]
    exact h.room
  · dsimp only
    rw [hlen]
    exact h.window

theorem resent (h : PortLaw running c q) (hrunning : running = true) (frame : List Byte) :
    PortLaw running { c with tx := .notice frame } { q with inFlight := unmarkFirst q.inFlight } := by
  have hseqs := unmarkFirst_seqs q.inFlight
  have hempty : unmarkFirst q.inFlight = [] ↔ q.inFlight = [] := by
    rw [← List.length_eq_zero_iff, ← List.length_map (·.seq), hseqs, List.length_map,
      List.length_eq_zero_iff]
  refine h.remarked hrunning ⟨h.delivery.closed, fun hclosed => hempty.mpr (h.delivery.empty hclosed),
    h.delivery.sequences.of_seqs hseqs, ?_, fun hstate x hx => ?_⟩ hseqs _
  · rw [h.delivery.timer, ne_eq, ne_eq, hempty]
  · by_contra hmarked
    obtain ⟨y, hy, hm⟩ := marked_of_mem_unmarkFirst hx (Bool.not_eq_false _ |>.mp hmarked)
    exact absurd (hm.symm.trans (h.delivery.marks hstate y hy)) (by decide)

theorem ticked (h : PortLaw running c q) (hrunning : running = true) : PortLaw running c.ticked q where
  held := not_held hrunning
  session := h.session
  delivery :=
    { closed := h.delivery.closed, empty := h.delivery.empty, sequences := h.delivery.sequences
      marks := h.delivery.marks
      timer := by
        have htimer := h.delivery.timer
        unfold PortCtl.ticked
        rwa [Option.isSome_map] }
  room := h.room
  window := h.window

/-- The law of one port is kept by everything an event can do to it. -/
theorem move (h : PortLaw running c q) (hmove : PortMove running c q c' q') : PortLaw running c' q' := by
  cases hmove with
  | turned hrunning hsession hdelivery => exact h.turned hrunning hsession hdelivery
  | answered body => exact h.answered body
  | freed service hservice => exact h.freed hservice
  | opened hrunning body x hx =>
    obtain ⟨hopen, hlawful⟩ := openSession_lawful hx
    refine returned (not_held hrunning) hlawful ?_ ((openQueue_size body q).trans h.room)
    rw [hopen]
    exact Delivery.fresh_lawful
  | resynced hrunning hopen =>
    refine returned (not_held hrunning) h.session ?_ h.room
    rw [hopen]
    exact Delivery.fresh_lawful
  | tornDown cause => exact h.tornDown cause
  | placed content => exact h.placed content
  | acked hopen front x rest hflight => exact h.acked hopen hflight
  | sent hrunning hready r rest hunsent hwindow frame =>
    exact h.sent hrunning hready hunsent hwindow frame
  | resent hrunning frame => exact h.resent hrunning frame
  | ticked hrunning => exact h.ticked hrunning
  | round hrunning hexpired retries =>
    obtain ⟨hready, n, htimer, -⟩ := PortCtl.timerExpired_iff.mp hexpired
    have hne : q.inFlight ≠ [] := (h.delivery.timer.mp (by rw [htimer]; rfl)).2
    have hseqs : q.allMarked.inFlight.map (·.seq) = q.inFlight.map (·.seq) := by
      simp [NoticeQueue.allMarked, Function.comp_def]
    exact h.remarked hrunning (h.delivery.remarked hready hne hseqs) hseqs c.tx
  | stalled hrunning hexpired =>
    obtain ⟨hready, -⟩ := PortCtl.timerExpired_iff.mp hexpired
    have hseqs : q.unmarked.inFlight.map (·.seq) = q.inFlight.map (·.seq) := by
      simp [NoticeQueue.unmarked, Function.comp_def]
    have hmarks : ∀ x ∈ q.unmarked.inFlight, x.marked = false := by
      simp [NoticeQueue.unmarked]
    exact h.remarked hrunning (h.delivery.stalled hready hseqs hmarks) hseqs c.tx

/-! ### The hold and the start of a port -/

theorem atReset (running : Bool) (lastEnd : SessionEnd) (awaitMark rdy : Bool)
    (hflight : q.inFlight = []) (hroom : q.size ≤ Config.queueRoom) :
    PortLaw running { PortCtl.atReset lastEnd with awaitMark, rdy } q where
  held _ := ⟨rfl, rfl, rfl, rfl, rfl, rfl, rfl⟩
  session := Session.closed_lawful lastEnd
  delivery := by rw [hflight]; exact Delivery.atReset_lawful
  room := hroom
  window := by rw [hflight]; exact Nat.zero_le _

theorem heldReset (h : PortLaw running c q) : PortLaw false c.heldReset q.returnToUnsent :=
  atReset false _ _ _ rfl (q.returnToUnsent_size.trans h.room)

/-- A held port has no record in flight, and starts lawful (R175). -/
theorem started (h : PortLaw false c q) (cause : StartCause) (marking : Bool) :
    PortLaw true (c.started cause marking) q :=
  atReset true _ _ _ (h.delivery.empty (by rw [(h.held rfl).delivery]; rfl)) h.room

end PortLaw

/-! ### The laws of the four ports and of the port domain -/

/-- The laws of the four ports, with those of the Standby Controller and of the lease in a held port
domain. -/
structure Link.Lawful (x : Link) : Prop where
  port : ∀ p, PortLaw x.running (x.ports.get p) (x.queues.get p)
  lease : x.running = false → x.holder = none
  condition : x.running = !holdCond x.pf x.rst x.vddGood
  flag : x.flag = standbyCond x.pf x.vddGood
  wake : x.wake = true → x.flag = true

/-- They are the laws of sessions, delivery, Notice Queues and the hold taken together. -/
theorem State.link_lawful_iff {s : State} :
    s.link.Lawful ↔ HoldLaw s ∧ SessionLaw s ∧ DeliveryLaw s ∧ QueueLaw s := by
  constructor
  · intro h
    exact ⟨⟨fun hr p => by
        obtain ⟨h1, h2, h3, h4, h5, h6, h7⟩ := (h.port p).held hr
        exact ⟨h1, h2, h3, h4, h5, h6, h7⟩, h.lease, h.condition, h.flag, h.wake⟩,
      ⟨fun p => (h.port p).session.options, fun p => (h.port p).session.closed⟩,
      ⟨fun p => (h.port p).delivery.closed, fun p => (h.port p).delivery.empty,
        fun p => (h.port p).delivery.sequences, fun p => (h.port p).delivery.timer,
        fun p => (h.port p).delivery.marks⟩,
      ⟨fun p => (h.port p).room, fun p => (h.port p).window,
        fun p => (h.port p).session.options.2.1⟩⟩
  · rintro ⟨hhold, hsession, hdelivery, hqueue⟩
    refine ⟨fun p => ⟨fun hr => ?_, ⟨hsession.options p, hsession.closed p⟩,
      ⟨hdelivery.closed p, hdelivery.none p, hdelivery.sequences p, hdelivery.timer p,
        hdelivery.marks p⟩, hqueue.room p, hqueue.window p⟩,
      hhold.lease, hhold.condition, hhold.flag, hhold.wake⟩
    obtain ⟨h1, h2, h3, h4, h5, h6, h7⟩ := hhold.ports hr p
    exact ⟨h1, h2, h3, h4, h5, h6, h7⟩

/-- What a hold makes of the link (R173). -/
theorem State.holdDomain_link (s : State) : s.holdDomain.link = { s.link with
    ports := s.ports.map PortCtl.heldReset, queues := s.queues.map NoticeQueue.returnToUnsent
    holder := none } := by
  have hholder := s.endLease_holder (some .reset)
  unfold State.holdDomain State.link
  simp only [hholder]
  rw [s.endLease_frame]

/-- What a start makes of the link (R175). -/
theorem State.startDomain_lawful {s : State} (straps : Straps)
    (hport : ∀ p, PortLaw false (s.port p) (s.queue p))
    (hcondition : holdCond s.standby.pf s.standby.rst s.standby.vddGood = false)
    (hflag : s.standby.flag = standbyCond s.standby.pf s.standby.vddGood)
    (hwake : s.standby.wake = true → s.standby.flag = true) : (s.startDomain straps).link.Lawful where
  port p := by
    have hstarted := (hport p).started s.standby.cause (straps.marking.get p)
    rw [← s.startDomain_port] at hstarted
    exact hstarted
  lease := nofun
  condition := by
    show true = !holdCond s.standby.pf s.standby.rst s.standby.vddGood
    rw [hcondition]
    rfl
  flag := hflag
  wake := hwake

/-- A latched wake request goes with the flag of the new inputs. -/
theorem wake_of_and {wake flag : Bool} (h : (wake && flag) = true) : flag = true :=
  (Bool.and_eq_true_iff.mp h).2

/-- A change of an input holds the ports, starts them or leaves them, with the flag and the latch as R172
has them. -/
theorem State.inputs_lawful {s : State} (hs : s.link.Lawful) (pf rst good : Bool) (straps : Straps) :
    (s.inputs pf rst good straps).link.Lawful := by
  rcases s.inputs_cases pf rst good straps with ⟨hhold, hr, e⟩ | ⟨hhold, hr, e⟩ | ⟨hhold, hr, e⟩ |
    ⟨hhold, hr, e⟩ <;> rw [e]
  · rw [State.holdDomain_link]
    refine ⟨fun p => ?_, fun _ => rfl, ?_, rfl, wake_of_and⟩
    · show PortLaw false ((s.ports.map _).get p) ((s.queues.map _).get p)
      rw [Quad.get_map, Quad.get_map]
      exact (hs.port p).heldReset
    · show false = !holdCond pf rst good
      rw [hhold]
      rfl
  · have hport (p : Port) : PortLaw false (s.port p) (s.queue p) := hr ▸ hs.port p
    refine ⟨hport, fun _ => hs.lease hr, ?_, rfl, wake_of_and⟩
    show false = !holdCond pf rst good
    rw [hhold]
    rfl
  · refine ⟨hs.port, hs.lease, ?_, rfl, wake_of_and⟩
    show s.standby.running = !holdCond pf rst good
    rw [hhold, hr]
    rfl
  · have hport (p : Port) : PortLaw false (s.port p) (s.queue p) := hr ▸ hs.port p
    exact State.startDomain_lawful straps hport hhold rfl wake_of_and

theorem coldStart_lawful (s : State) (pf rst : Bool) (good : Option Straps) :
    Answers (fun t => t.link.Lawful) (execColdStart pf rst s good) := by
  have hport (p : Port) : PortLaw false
      ((State.cold s.pending s.freeIndex pf rst good.isSome (good.getD s.pins)).port p)
      ((State.cold s.pending s.freeIndex pf rst good.isSome (good.getD s.pins)).queue p) := by
    rw [State.cold_port, State.cold_queue]
    exact PortLaw.atReset false .none true false rfl (Nat.zero_le _)
  have hcold (hhold : holdCond pf rst good.isSome = true) :
      (State.cold s.pending s.freeIndex pf rst good.isSome (good.getD s.pins)).link.Lawful :=
    ⟨hport, fun _ => rfl, by show false = !holdCond pf rst good.isSome; rw [hhold]; rfl, rfl, nofun⟩
  refine answers_next.mpr ?_
  cases good with
  | none => exact hcold (by simp [holdCond, standbyCond])
  | some straps =>
    dsimp only
    split
    · rename_i h
      exact hcold (by simpa [holdCond, standbyCond] using h)
    · rename_i h
      have hcondition : holdCond pf rst true = false := by simpa [holdCond, standbyCond] using h
      exact State.startDomain_lawful straps hport hcondition rfl nofun

theorem portLaws_invariant : PortInvariant fun s => s.link.Lawful where
  frame hs h := h ▸ hs
  moved := by
    intro s p c q hs hmove
    refine ⟨fun r => ?_, hs.lease, hs.condition, hs.flag, hs.wake⟩
    show PortLaw s.standby.running ((s.withPort p c q).port r) ((s.withPort p c q).queue r)
    rw [State.withPort_port, State.withPort_queue]
    split
    · exact PortLaw.move (hs.port p) hmove
    · exact hs.port r
  leased lease hs h :=
    ⟨hs.port, fun hr => h.resolve_right fun hrunning => absurd (hrunning.symm.trans hr) (by decide),
      hs.condition, hs.flag, hs.wake⟩
  woken hs := ⟨hs.port, hs.lease, hs.condition, hs.flag, fun h => (Bool.or_eq_true_iff.mp h).elim hs.wake id⟩
  inputs pf rst good straps hs := State.inputs_lawful hs pf rst good straps
  cold := coldStart_lawful

/-- Settles O12: the law of each port is kept by everything an event can do to it (`PortLaw.move`), and the
hold and the start put every port in its reset values (`State.inputs_lawful`). -/
theorem portLawsKept : Obligations.PortLawsKept := fun s s' hs h =>
  State.link_lawful_iff.mp
    (portLaws_invariant.keptByStep s s' (State.link_lawful_iff.mpr hs) h)

end Sys2Proof.Machine
end

section
/-! PROOFS. The Notice Unit places a notice (O51), and the body of a notice frame (O53). -/

namespace Sys2Proof.Machine

/-! ### The notice that may be taken (R81) -/

section Ready

variable {s : State} {src : NoticeSource}

theorem State.noticeReady_of_none (h : ∀ m ∈ s.transit.notices, m.src ≠ src) :
    s.noticeReady src = none := by
  unfold State.noticeReady
  rw [List.find?_eq_none.mpr (by simpa using h)]

/-- The oldest notice of a block waits for those of the block upstream that come before it. -/
theorem State.noticeReady_of_oldest {front back : List NoticeMsg} {m : NoticeMsg}
    (hnotices : s.transit.notices = front ++ m :: back) (hm : m.src = src)
    (hfront : ∀ x ∈ front, x.src ≠ src) : s.noticeReady src =
      if ∃ x ∈ s.transit.notices, some x.src = upstreamOf src ∧ x.stamp < m.after then none else some m := by
  have hfind : s.transit.notices.find? (·.src == src) = some m := by
    rw [hnotices, List.find?_append, List.find?_eq_none.mpr (by simpa using hfront), Option.none_or,
      List.find?_cons_of_pos (by simpa using hm)]
  unfold State.noticeReady
  rw [hfind]
  simp only [List.any_eq_true, Bool.and_eq_true, decide_eq_true_eq]

end Ready

/-! ### The queues a notice is placed in -/

/-- A notice placed for one port, when it is addressed. -/
theorem placeFor_queue (content : Content) (set : PortSet) (s : State) (r p : Port) :
    (placeFor content set s r).queue p =
      if p = r ∧ set.get r = true then (s.queue p).placeNotice content else s.queue p := by
  unfold placeFor
  by_cases hset : set.get r = true
  · rw [if_pos hset, s.onQueue_eq_withPort, State.withPort_queue]
    by_cases hp : p = r
    · subst hp
      rw [if_pos rfl, if_pos ⟨rfl, hset⟩]
    · rw [if_neg hp, if_neg fun h => hp h.1]
  · rw [if_neg hset, if_neg fun h => hset h.2]

/-- A notice placed for one port after another goes into each addressed queue once. -/
theorem placeFor_foldl_queue (content : Content) (set : PortSet) (l : List Port) (hl : l.Nodup) (s : State)
    (p : Port) : (l.foldl (placeFor content set) s).queue p =
      if p ∈ l ∧ set.get p = true then (s.queue p).placeNotice content else s.queue p := by
  induction l generalizing s with
  | nil => simp
  | cons r rest ih =>
    obtain ⟨hr, hrest⟩ := List.nodup_cons.mp hl
    rw [List.foldl_cons, ih hrest, placeFor_queue]
    by_cases hp : p = r
    · subst hp
      simp [hr]
    · simp [hp]

/-- Placing a notice changes the Notice Queues and nothing else. -/
theorem placeFor_foldl_frame (content : Content) (set : PortSet) (l : List Port) (s : State) :
    l.foldl (placeFor content set) s =
      { s with queues := (l.foldl (placeFor content set) s).queues } := by
  induction l generalizing s with
  | nil => rfl
  | cons r rest ih =>
    rw [List.foldl_cons]
    have hone : placeFor content set s r = { s with queues := (placeFor content set s r).queues } := by
      unfold placeFor
      split <;> rfl
    refine (ih _).trans ?_
    rw [hone]

theorem Port.mem_all (p : Port) : p ∈ Port.all := by cases p <;> decide

theorem State.addressed_get (s : State) (a : Address) (p : Port) : (s.addressed a).get p =
    match a with
    | .ports set => set.get p
    | .openSessions => (s.port p).session.isOpen := by
  cases a with
  | ports set => rfl
  | openSessions => exact Quad.get_map _ _ p

/-- The state with a notice off its way to the Notice Unit. -/
def State.noticeOffWay (s : State) (m : NoticeMsg) : State :=
  { s with transit := { s.transit with notices := s.transit.notices.erase m } }

theorem execNoticeTaken_of_ready {s : State} {src : NoticeSource} {m : NoticeMsg}
    (h : s.noticeReady src = some m) : exec (.noticeTaken src) s =
      .next (Port.all.foldl (placeFor m.content (s.addressed m.address)) (s.noticeOffWay m)) := by
  show execNoticeTaken src s = _
  unfold execNoticeTaken
  rw [h]
  rfl

theorem execNoticeTaken_of_none {s : State} {src : NoticeSource} (h : s.noticeReady src = none) :
    exec (.noticeTaken src) s = .next s := by
  show execNoticeTaken src s = _
  unfold execNoticeTaken
  rw [h]

/-! ### What becomes of a notice in a queue (R81, R83, R84) -/

section Placed

variable {q : NoticeQueue} {c : Content}

/-- A firing goes into the first record of its handle. -/
theorem coalesceFirst_of_split {n : Handle} (missed : Bool) (count : Nat) (isFinal : Bool)
    {front back : List Record} {x : Record} (hfront : ∀ r ∈ front, r.firingHandle ≠ some n)
    (hx : x.firingHandle = some n) : coalesceFirst n missed count isFinal (front ++ x :: back) =
      some (front ++ x.coalesce missed count isFinal :: back) := by
  induction front with
  | nil => simp [coalesceFirst, Record.firesFor_iff.mpr hx]
  | cons r front ih =>
    have hr := Record.firesFor_eq_false_iff.mpr (hfront r List.mem_cons_self)
    have hrest := ih fun y hy => hfront y (List.mem_cons_of_mem r hy)
    simp [coalesceFirst, hr, hrest]

theorem NoticeQueue.placeNotice_of_coalesce {unsent : List Record} (h : q.tryCoalesce c = some unsent) :
    q.placeNotice c = { q with unsent } := by
  unfold NoticeQueue.placeNotice
  rw [h]

/-- A notice that does not coalesce joins the tail of a queue with room, and is lost in a full one. -/
theorem NoticeQueue.placeNotice_of_none (h : q.tryCoalesce c = none) :
    (q.size < 16 → q.placeNotice c = { q with unsent := q.unsent ++ [⟨c, q.loss⟩], loss := false }) ∧
    (16 ≤ q.size → q.placeNotice c = { q with loss := true }) := by
  unfold NoticeQueue.placeNotice
  rw [h]
  exact ⟨fun hroom => if_pos hroom, fun hfull => if_neg (Nat.not_lt.mpr hfull)⟩

theorem NoticeQueue.tryCoalesce_of_other (h : ∀ a b d e f g i, c ≠ .firing a b d e f g i) :
    q.tryCoalesce c = none := by
  cases c with
  | firing a b d e f g i => exact absurd rfl (h a b d e f g i)
  | _ => rfl

end Placed

/-- Settles O51: the notice that may be taken by `State.noticeReady_of_oldest`, the queues it goes into by
`placeFor_foldl_queue`, and what becomes of it there by the lemmas on `NoticeQueue.placeNotice`. -/
theorem noticePlaced : Obligations.NoticePlaced := by
  refine ⟨?_, ?_, ?_, ?_, fun q c hc =>
    NoticeQueue.placeNotice_of_none (NoticeQueue.tryCoalesce_of_other hc)⟩
  · intro s src upstream
    have hupstream : upstream = upstreamOf src := by cases src <;> rfl
    refine ⟨State.noticeReady_of_none, fun front m back hnotices hm hfront => ?_, execNoticeTaken_of_none⟩
    have hready := State.noticeReady_of_oldest hnotices hm hfront
    rw [← hupstream] at hready
    exact ⟨fun hwaits => hready.trans (if_pos hwaits), fun hwaits => hready.trans (if_neg hwaits)⟩
  · intro s src c a after
    cases src <;> rfl
  · intro s src m hready
    refine ⟨_, execNoticeTaken_of_ready hready, placeFor_foldl_frame _ _ _ _, ?_⟩
    intro p addressed
    have haddressed : (s.addressed m.address).get p = addressed := s.addressed_get m.address p
    rw [placeFor_foldl_queue _ _ _ (by decide), haddressed]
    simp only [Port.mem_all, true_and]
    rfl
  · intro q missed isFinal n tag due count late c
    refine ⟨fun front back m₀ f₀ loss tag₀ due₀ c₀ late₀ hunsent hfront => ?_, fun hnone => ?_⟩
    · refine NoticeQueue.placeNotice_of_coalesce ?_
      show coalesceFirst n missed count isFinal q.unsent = _
      rw [hunsent]
      exact coalesceFirst_of_split missed count isFinal hfront rfl
    · exact NoticeQueue.placeNotice_of_none
        (coalesceFirst_none.mpr fun r hr => Record.firesFor_eq_false_iff.mpr (hnone r hr))

/-! ### The characters of a notice (R181, R184) -/

/-- A number's characters are the bytes of its bit vector, the most significant first. -/
theorem natBytes_toNat {w : Nat} (x : BitVec w) (width : Nat) :
    natBytes width x.toNat = (List.range width).reverse.map fun k => x.extractLsb' (8 * k) 8 := by
  induction width with
  | zero => rfl
  | succ k ih =>
    have hbyte : BitVec.ofNat 8 (x.toNat / 256 ^ k) = x.extractLsb' (8 * k) 8 := by
      apply BitVec.eq_of_toNat_eq
      rw [BitVec.toNat_ofNat, BitVec.extractLsb'_toNat, Nat.shiftRight_eq_div_pow, pow_mul]
      rfl
    rw [List.range_succ, List.reverse_append, natBytes, ih, hbyte]
    rfl

/-- A signed number's characters are the bytes of its two's complement. -/
theorem intBytes_eq (width : Nat) (i : Int) :
    intBytes width i = natBytes width (BitVec.ofInt (8 * width) i).toNat := by
  unfold intBytes
  rw [BitVec.toNat_ofInt, pow_mul]
  rfl

/-- The flags character of a FIRE or MISSED notice, bit by bit. -/
theorem flags_final (loss isFinal : Bool) :
    byteOf (loss.toNat + 2 * isFinal.toNat + 4 * false.toNat) =
      (if loss then 1 else 0) ||| (if isFinal then 2 else 0) := by
  cases loss <;> cases isFinal <;> rfl

/-- The flags character of a STEPPED notice, bit by bit. -/
theorem flags_cancelled (loss cancelled : Bool) :
    byteOf (loss.toNat + 2 * false.toNat + 4 * cancelled.toNat) =
      (if loss then 1 else 0) ||| (if cancelled then 4 else 0) := by
  cases loss <;> cases cancelled <;> rfl

/-- The flags character of every other notice. -/
theorem flags_loss (loss : Bool) :
    byteOf (loss.toNat + 2 * false.toNat + 4 * false.toNat) = if loss then 1 else 0 := by
  cases loss <;> rfl

/-- Settles O53: the layouts of `Record.bytes`, with the numbers' characters by `natBytes_toNat` and the
flags bit by bit. -/
theorem noticeBodies : Obligations.NoticeBodies := by
  intro loss missed isFinal cancelled n tag due count late instant delta bit handle tags calendar amount body
  have htags : natBytes 4 tag.toNat = tags := natBytes_toNat tag 4
  have hamount : intBytes 6 delta = [amount.extractLsb' 40 8, amount.extractLsb' 32 8,
      amount.extractLsb' 24 8, amount.extractLsb' 16 8, amount.extractLsb' 8 8, amount.extractLsb' 0 8] :=
    (intBytes_eq 6 delta).trans (natBytes_toNat amount 6)
  have hlate : natBytes 2 late = [BitVec.ofNat 8 (late / 256), BitVec.ofNat 8 late] := by
    simp [natBytes]
  refine ⟨?_, fun cause => ?_, ?_, ?_, ?_, ?_, fun cause => ?_⟩
  · simp only [body, Record.bytes, flags_final, htags, hlate]
    rfl
  · simp only [body, Record.bytes, flags_loss, htags]
    cases cause <;> rfl
  · simp only [body, Record.bytes, flags_cancelled, hamount]
    rfl
  · simp only [body, Record.bytes, flags_loss]
    rfl
  · simp only [body, Record.bytes, flags_loss]
    rfl
  · simp only [body, Record.bytes, flags_loss]
    rfl
  · simp only [body, Record.bytes, flags_loss]
    cases cause <;> rfl

end Sys2Proof.Machine
end

section
/-! PROOFS. OPEN (O29), the teardown and CLOSE (O30), and PING, RESYNC and STATUS (O31). -/

namespace Sys2Proof.Machine

/-! ### The requests of the Port Controller reach their acts -/

section Served

variable {s : State} {p : Port} {h : Header}

theorem exec_openReq {mask w a r k m : Byte} (ht : s.takes p h [0x10, mask, w, a, r, k, m]) :
    exec (.openReq p h [mask, w, a, r, k, m]) s = .next
      (openAct p [0x10, mask, w, a, r, k, m] (s.serving p h [0x10, mask, w, a, r, k, m])) :=
  congrArg Host.Outcome.next (serve_of_takes (gated := false) ht rfl nofun)

theorem exec_closeReq (ht : s.takesOpen p h [0x11]) : exec (.closeReq p h []) s =
    .next (closeWith p h [0x11] [0x00] (s.serving p h [0x11])) :=
  congrArg Host.Outcome.next (serve_of_takes ht.1 rfl fun _ => ht.2)

theorem exec_pingReq {data : List Byte} (hl : data.length ≤ 16) (ht : s.takesOpen p h (0x12 :: data)) :
    exec (.pingReq p h data) s = .next (s.answered p h (0x12 :: data) (0x00 :: data)) :=
  congrArg Host.Outcome.next (serve_of_takes (gated := true)
    (act := fun s => s.respond p (okBody data)) ht.1 (by simpa [Nat.lt_succ_iff] using hl) fun _ => ht.2)

theorem exec_resyncReq (ht : s.takesOpen p h [0x14]) : exec (.resyncReq p h []) s =
    .next (((s.serving p h [0x14]).resync p).respond p
      [0x00, byteOf (((s.serving p h [0x14]).resync p).queue p).size]) :=
  congrArg Host.Outcome.next (serve_of_takes (gated := true)
    (act := fun s => (s.resync p).respond p (okBody [byteOf ((s.resync p).queue p).size])) ht.1 rfl
    fun _ => ht.2)

theorem exec_statusReq (ht : s.takes p h [0x13]) : exec (.statusReq p h []) s =
    .next ((s.answered p h [0x13] (0x00 :: statusFields (s.serving p h [0x13]) p)).onPort p fun c =>
      { c with lastError := .none }) :=
  congrArg Host.Outcome.next (serve_of_takes (gated := false)
    (act := fun s => (s.respond p (okBody (statusFields s p))).onPort p fun c =>
      { c with lastError := .none }) ht rfl nofun)

end Served

/-! ### OPEN -/

@[simp] theorem State.serving_withPort (s : State) (p : Port) (h : Header) (body : List Byte)
    (c : PortCtl) (q : NoticeQueue) : (s.serving p h body).withPort p c q = s.withPort p c q := by
  unfold State.serving
  rw [State.onPort_eq_withPort, State.withPort_withPort]

@[simp] theorem State.withPort_respond (s : State) (p : Port) (c : PortCtl) (q : NoticeQueue)
    (body : List Byte) : (s.withPort p c q).respond p body = s.withPort p (c.respond body) q := by
  unfold State.respond
  rw [State.onPort_eq_withPort, State.withPort_withPort, State.withPort_port_self,
    State.withPort_queue_self]

theorem openQueue_returned (body : List Byte) (q : NoticeQueue) :
    (openQueue body q).returnToUnsent =
      if (byteAt body 1).getLsbD 7 then ⟨[], [], false⟩ else q.returnToUnsent := by
  unfold openQueue
  split <;> rfl

/-- The attention mode's character, as OPEN is given it (R183). -/
theorem flagByte_attention {n : Nat} (hn : n ≤ 1) : flagByte (n == 1) = byteOf n := by
  rcases Nat.le_one_iff_eq_zero_or_eq_one.mp hn with rfl | rfl <;> rfl

/-- The fields of an OPEN response, one by one (R183). -/
theorem openFields_withPort (s : State) (p : Port) (c : PortCtl) (q : NoticeQueue) :
    openFields (s.withPort p c q) p = [portByte p, portByte s.supervisor, byteOf c.session.window,
      byteOf c.session.ackTimeout, byteOf c.session.retryLimit, byteOf c.session.keepalive,
      flagByte c.session.attention, byteOf q.size, flagByte q.loss, c.session.lastEnd.code] := by
  unfold openFields
  rw [State.withPort_port_self, State.withPort_queue_self]
  rfl

/-- Settles O29: past its gates OPEN is `openAct`, by whether `openSession` finds an option out of
range. -/
theorem openCarriedOut : Obligations.OpenCarriedOut := by
  intro s p h mask w a r k m body ht opt attention x inRange q
  have hlast : ((s.serving p h body).port p).session.lastEnd = (s.port p).session.lastEnd := by
    rw [State.serving_port_self, PortCtl.serving_session, Session.reloaded_lastEnd]
  have hsession : openSession body ((s.serving p h body).port p).session.lastEnd =
      if inRange then some x else none := by
    rw [hlast]
    rfl
  have hq : (openQueue body (s.queue p)).returnToUnsent = q := openQueue_returned body (s.queue p)
  refine ⟨fun hin => ?_, fun hout => ?_⟩
  · have hx := hsession.trans (if_pos hin)
    obtain ⟨-, -, -, -, hattention⟩ := hin
    have hflag : flagByte x.attention = byteOf attention := flagByte_attention hattention
    rw [exec_openReq ht, openAct_of_some hx, State.serving_withPort, openFields_withPort,
      State.withPort_respond, State.serving_port_self, State.serving_queue, hq, hflag]
    rfl
  · rw [exec_openReq ht, openAct_of_none (hsession.trans (if_neg hout))]
    rfl

/-! ### The teardown and CLOSE -/

/-- The KICKs of a port that is torn down are no longer in service (R148). -/
theorem State.teardown_kicks (s : State) (p : Port) (cause : SessionEnd) :
    (s.teardown p cause).transit.kicks =
      s.transit.kicks.map fun k => { k with live := k.live && decide (k.sender ≠ p) } := by
  refine congrArg (fun f => List.map f s.transit.kicks) (funext fun k => ?_)
  by_cases hk : k.sender = p <;> simp [hk]

/-- No request of a port waits after a teardown of its session (R148). -/
theorem State.teardown_waits (s : State) (p : Port) (cause : SessionEnd) (h : Header) (body : List Byte) :
    (s.teardown p cause).waits p h body = false := by
  unfold State.waits
  rw [State.teardown_port_self]
  rfl

/-- Settles O30: the teardown by the small lemmas of `State.teardown`, a request that waited by
`request_handedOn_none`, and CLOSE by `closeWith`. -/
theorem closeTearsDown : Obligations.CloseTearsDown := by
  refine ⟨?_, ?_, fun s p h ht => exec_closeReq ht⟩
  · intro s p cause t
    have hport : t.port p = (s.port p).tornDown cause := s.teardown_port_self p cause
    refine ⟨rfl, s.teardown_queue_self p cause, fun q hq => s.teardown_queue_ne hq cause, ?_, ?_, ?_,
      fun q hq => s.teardown_port_ne hq cause, rfl, s.teardown_kicks p cause⟩
    · rw [hport]
      rfl
    · intro f b htx
      rw [hport]
      unfold PortCtl.tornDown
      rw [htx]
    · intro hne
      rw [hport]
      unfold PortCtl.tornDown
      dsimp only
      split
      · exact absurd ‹_› (hne _ _)
      · rfl
  · intro s p cause i r hi hphase hport
    obtain ⟨act, hexec⟩ := exec_request i r hi
    rw [hexec, hphase, request_handedOn_none (.inr (hport ▸ s.teardown_waits p cause r.header r.body))]

/-! ### PING, RESYNC and STATUS -/

/-- Settles O31: each request reaches its act, which is written out. -/
theorem pingResyncStatus : Obligations.PingResyncStatus := by
  refine ⟨fun s p h data hl ht => exec_pingReq hl ht, ?_, ?_⟩
  · intro s p h ht q
    rw [exec_resyncReq ht, State.resync_eq_withPort, State.serving_withPort, State.withPort_queue_self,
      State.withPort_respond, State.serving_port_self, State.serving_queue]
    rfl
  · intro s p h ht c x q
    have hfields : statusFields (s.serving p h [0x13]) p = [portByte p, portByte s.supervisor,
        flagByte x.isOpen, byteOf x.window, byteOf x.ackTimeout, byteOf x.retryLimit,
        byteOf x.keepalive, flagByte x.attention, byteOf (x.keepCount.getD 0), x.lastEnd.code,
        c.delivery.state.code, byteOf q.inFlight.length, byteOf q.unsent.length,
        byteOf c.delivery.nextSeq.val, byteOf c.delivery.retries, flagByte q.loss, c.lastError.code,
        portOrNone s.lease.holder, byteOf s.lease.remaining] := by
      unfold statusFields
      rw [State.serving_port_self]
      rfl
    rw [exec_statusReq ht, hfields]
    unfold State.answered State.respond State.serving
    rw [State.onPort_onPort, State.onPort_onPort]
    rfl

end Sys2Proof.Machine
end

section
/-! PROOFS. The attention output (O54), acknowledgements (O55) and the ack timer (O56). -/

namespace Sys2Proof.Machine

/-! ### The attention output (R98) -/

theorem NoticeQueue.size_pos_iff {q : NoticeQueue} : 0 < q.size ↔ q.inFlight ≠ [] ∨ q.unsent ≠ [] := by
  unfold NoticeQueue.size
  rw [Nat.add_pos_iff_pos_or_pos, List.length_pos_iff, List.length_pos_iff]

theorem Session.attentionApplies_iff {x : Session} :
    x.attentionApplies = true ↔ x.isOpen = false ∨ x.attention = true := by
  simp [Session.attentionApplies]

theorem State.atn_iff {s : State} {p : Port} : s.atn p = true ↔
    s.standby.running = true ∧
    ((s.port p).session.isOpen = false ∨ (s.port p).session.attention = true) ∧
    ((s.queue p).inFlight ≠ [] ∨ (s.queue p).unsent ≠ [] ∨ (s.port p).delivery.state = .stalled) := by
  unfold State.atn
  rw [Bool.and_eq_true, Bool.and_eq_true, Session.attentionApplies_iff, Bool.or_eq_true,
    decide_eq_true_eq, NoticeQueue.size_pos_iff, beq_iff_eq, and_assoc, or_assoc]

/-- Settles O54: `State.atn_iff`, with the port domain running exactly where the hold condition is
false. -/
theorem attentionOutput : Obligations.AttentionOutput := by
  refine ⟨fun s p => State.atn_iff, fun s p hs => ⟨fun hhold => ?_, fun hhold hclosed hsize => ?_⟩⟩
  · have hheld : s.standby.running = false := by rw [hs.condition, hhold]; rfl
    rw [← Bool.not_eq_true, State.atn_iff, hheld]
    exact fun h => absurd h.1 (by decide)
  · have hrunning : s.standby.running = true := by rw [hs.condition, hhold]; rfl
    have hrecords := NoticeQueue.size_pos_iff.mp hsize
    exact State.atn_iff.mpr ⟨hrunning, .inl hclosed, hrecords.imp id .inl⟩

/-! ### Acknowledgements (R89, R163) -/

/-- The record of the sequence and every one ahead of it are retired. -/
theorem retireThrough_of_split {seq : Fin 16} {front back : List Sent} {x : Sent} (hx : x.seq = seq)
    (hfront : ∀ y ∈ front, y.seq ≠ seq) : retireThrough seq (front ++ x :: back) = some back := by
  induction front with
  | nil => exact if_pos hx
  | cons y front ih =>
    refine (if_neg (hfront y List.mem_cons_self)).trans ?_
    exact ih fun z hz => hfront z (List.mem_cons_of_mem y hz)

theorem retireThrough_none {seq : Fin 16} {l : List Sent} (h : ∀ y ∈ l, y.seq ≠ seq) :
    retireThrough seq l = none := by
  cases hr : retireThrough seq l with
  | none => rfl
  | some rest =>
    obtain ⟨front, x, rfl, hx, -⟩ := retireThrough_some hr
    exact absurd hx (h x (by simp))

/-- A port's controller once it has accepted a frame that is not a request (R163). -/
def PortCtl.heard (c : PortCtl) (bytes : List Byte) : PortCtl :=
  { c.frameTaken bytes with session := (c.frameTaken bytes).session.reloaded }

theorem acceptOther_eq (p : Port) (bytes : List Byte) (s : State) :
    acceptOther p bytes s = s.withPort p ((s.port p).heard bytes) (s.queue p) :=
  s.onPort_eq_withPort p _

@[simp] theorem PortCtl.heard_isOpen (c : PortCtl) (bytes : List Byte) :
    (c.heard bytes).session.isOpen = c.session.isOpen := by
  unfold PortCtl.heard
  rw [Session.reloaded_isOpen, PortCtl.frameTaken_session]

/-- An ACK that a port hears. -/
theorem exec_ack {s : State} {p : Port} {h : Header} {body : List Byte} (hh : s.hears p body) :
    exec (.ack p h body) s = .next (takeAck p h.seq
      (s.withPort p ((s.port p).heard (frameBytes .ack h body)) (s.queue p))) := by
  have hfits : bodyFits body = true := by simpa [bodyFits] using hh.2
  show execAck p h body s = _
  unfold execAck
  rw [hh.1, hfits, acceptOther_eq]
  rfl

/-- An ACK of a record in flight, in an OPEN session. -/
theorem takeAck_of_some {s : State} {p : Port} {seq : Fin 16} {rest : List Sent}
    (hopen : (s.port p).session.isOpen = true) (hr : retireThrough seq (s.queue p).inFlight = some rest) :
    takeAck p seq s = s.withPort p
      { s.port p with delivery := (s.port p).delivery.acked (!rest.isEmpty) }
      { s.queue p with inFlight := rest } := by
  unfold takeAck
  rw [if_pos hopen, hr]
  rfl

/-- An ACK without a session, or of no record in flight. -/
theorem takeAck_of_none {s : State} {p : Port} {seq : Fin 16}
    (h : (s.port p).session.isOpen = false ∨ retireThrough seq (s.queue p).inFlight = none) :
    takeAck p seq s = s := by
  unfold takeAck
  split
  · rename_i hopen
    rw [h.resolve_left (by simp [hopen])]
  · rfl

/-- The delivery after an ACK has left records `rest` in flight. -/
theorem Delivery.acked_eq (d : Delivery) (rest : List Sent) : d.acked (!rest.isEmpty) = { d with
    retries := 0
    timer := if rest = [] then none else if d.state = .ready then some 0 else d.timer } := by
  cases rest <;> simp [Delivery.acked]

/-- Settles O55: the ACK by `takeAck_of_some` where a record of its sequence is in flight, and by
`takeAck_of_none` otherwise. -/
theorem ackRetires : Obligations.AckRetires := by
  intro s p h body hh heard c
  have hexec := exec_ack (h := h) hh
  have hc : (s.port p).heard (frameBytes .ack h body) = c := rfl
  rw [hc] at hexec
  have hport : (s.withPort p c (s.queue p)).port p = c := s.withPort_port_self p c _
  have hqueue : (s.withPort p c (s.queue p)).queue p = s.queue p := s.withPort_queue_self p c _
  have hopen : c.session.isOpen = (s.port p).session.isOpen := PortCtl.heard_isOpen _ _
  refine ⟨fun front back x ho hflight hx hfront => ?_, fun hnone => ?_⟩
  · have hretired : retireThrough h.seq ((s.withPort p c (s.queue p)).queue p).inFlight = some back := by
      rw [hqueue, hflight]
      exact retireThrough_of_split hx hfront
    rw [hexec, takeAck_of_some (by rw [hport, hopen, ho]) hretired, hport, hqueue,
      State.withPort_withPort, Delivery.acked_eq]
    rfl
  · rw [hexec, takeAck_of_none]
    · simp [State.withPort, State.queue]
    · rw [hport, hqueue, hopen]
      exact hnone.imp id retireThrough_none

/-! ### The ack timer (R90, R91, R93) -/

/-- ACK_TIMEOUT at an expired timer in a running port domain. -/
theorem exec_ackTimeout {s : State} {p : Port} (hrunning : s.standby.running = true)
    (hexpired : (s.port p).timerExpired = true) : exec (.ackTimeout p) s = .next
      (let c := s.port p
       if c.delivery.retries < c.session.retryLimit then
         s.withPort p { c with delivery := { c.delivery with
           retries := c.delivery.retries + 1, timer := some 0 } } (s.queue p).allMarked
       else s.withPort p { c with delivery := { c.delivery with state := .stalled, timer := none } }
         (s.queue p).unmarked) :=
  congrArg Host.Outcome.next (if_pos ⟨hrunning, hexpired⟩)

/-- Settles O56: the ticks port by port, the timeout by whether the timer has expired
(`PortCtl.timerExpired_iff`). -/
theorem ackTimerRuns : Obligations.AckTimerRuns := by
  refine ⟨fun s => ?_, fun s p => ?_⟩
  · intro u
    refine ⟨fun hheld => ?_, fun hrunning => ⟨{ u with ports := s.ports.map PortCtl.ticked }, ?_, rfl,
      fun p => Quad.get_map _ s.ports p⟩⟩
    · exact congrArg Host.Outcome.next (if_neg (Bool.eq_false_iff.mp hheld))
    · exact congrArg Host.Outcome.next (if_pos hrunning)
  · intro c expired marks
    have hexpired : expired ↔ s.standby.running = true ∧ (s.port p).timerExpired = true :=
      and_congr_right fun _ => PortCtl.timerExpired_iff.symm
    refine ⟨fun he hretries => ?_, fun he hretries => ?_, fun hne => ?_⟩
    · obtain ⟨hrunning, he⟩ := hexpired.mp he
      rw [exec_ackTimeout hrunning he]
      exact congrArg Host.Outcome.next (if_pos hretries)
    · obtain ⟨hrunning, he⟩ := hexpired.mp he
      rw [exec_ackTimeout hrunning he]
      exact congrArg Host.Outcome.next (if_neg (Nat.not_lt.mpr hretries))
    · exact congrArg Host.Outcome.next (if_neg (mt hexpired.mpr hne))

end Sys2Proof.Machine
end

section
/-! PROOFS. Frame starts and frame ends at a port's transmitter (O57). -/

namespace Sys2Proof.Machine

/-! ### The sample of RDYn (R168) -/

section Sampled

variable {s : State} {p : Port} {rdy : Bool}

theorem State.sampleRdy_of_canStart (h : s.canStart p) (rdy : Bool) :
    s.sampleRdy p rdy = s.withPort p { s.port p with rdy } (s.queue p) := by
  obtain ⟨hrunning, hfree⟩ := h
  unfold State.sampleRdy
  rw [hrunning, hfree]
  exact (if_pos rfl).trans (s.onPort_eq_withPort p _)

theorem State.sampleRdy_of_sending (h : (s.port p).tx ≠ .free) : s.sampleRdy p rdy = s := by
  refine if_neg ?_
  simp [h]

/-- What a transmitter would start does not depend on the sample of RDYn. -/
@[simp] theorem State.sampleRdy_frameChoice : (s.sampleRdy p rdy).frameChoice p = s.frameChoice p := by
  by_cases h : s.canStart p
  · rw [State.sampleRdy_of_canStart h]
    have ht : (s.withPort p { s.port p with rdy } (s.queue p)).canStart p := by
      refine ⟨h.1, ?_⟩
      rw [State.withPort_port_self]
      exact h.2
    rw [State.frameChoice_of_canStart h, State.frameChoice_of_canStart ht, State.withPort_port_self,
      State.withPort_queue_self]
    rfl
  · have hsame : s.sampleRdy p rdy = s := by
      refine if_neg ?_
      simpa [State.canStart] using h
    rw [hsame]

end Sampled

/-! ### The frame starts, by what the transmitter would start -/

section Starts

variable {s : State} {p : Port} {rdy : Bool}

theorem exec_responseFrameStart_of_other (h : rdy = false ∨ ∀ v r, s.frameChoice p ≠ some (.response v r)) :
    exec (.responseFrameStart p rdy) s = .next (s.sampleRdy p rdy) := by
  show execResponseFrameStart p rdy s = _
  unfold execResponseFrameStart
  dsimp only
  split
  · rename_i v r hchoice
    rw [State.sampleRdy_frameChoice] at hchoice
    exact absurd hchoice (h.resolve_left (by decide) v r)
  · rfl

theorem exec_noticeFrameStart_of_other (h : rdy = false ∨ ∀ r, s.frameChoice p ≠ some (.fresh r)) :
    exec (.noticeFrameStart p rdy) s = .next (s.sampleRdy p rdy) := by
  show execNoticeFrameStart p rdy s = _
  unfold execNoticeFrameStart
  dsimp only
  split
  · rename_i r hchoice
    rw [State.sampleRdy_frameChoice] at hchoice
    exact absurd hchoice (h.resolve_left (by decide) r)
  · rfl

theorem exec_resendFrameStart_of_other (h : rdy = false ∨ ∀ x, s.frameChoice p ≠ some (.resend x)) :
    exec (.resendFrameStart p rdy) s = .next (s.sampleRdy p rdy) := by
  show execResendFrameStart p rdy s = _
  unfold execResendFrameStart
  dsimp only
  split
  · rename_i x hchoice
    rw [State.sampleRdy_frameChoice] at hchoice
    exact absurd hchoice (h.resolve_left (by decide) x)
  · rfl

/-- A ready response starts and writes the cache (R166). -/
theorem exec_responseFrameStart_of_choice {v : Service} {r : Response}
    (h : s.frameChoice p = some (.response v r)) : exec (.responseFrameStart p true) s =
      .next (s.withPort p { s.port p with
        rdy := true, cache := cacheAfter (s.port p).cache v r
        tx := .response (responseFrame v.header.seq r) true } (s.queue p)) := by
  have hcan := (State.frameChoice_response_iff.mp h).1
  show execResponseFrameStart p true s = _
  unfold execResponseFrameStart
  dsimp only
  rw [State.sampleRdy_frameChoice, h, State.sampleRdy_of_canStart hcan]
  simp only [State.onPort_eq_withPort, State.withPort_withPort, State.withPort_port_self,
    State.withPort_queue_self]

/-- The oldest marked record is sent again and loses its mark (R88, R91). -/
theorem exec_resendFrameStart_of_choice {x : Sent} (h : s.frameChoice p = some (.resend x)) :
    exec (.resendFrameStart p true) s = .next (s.withPort p
      { s.port p with rdy := true, tx := .notice (noticeFrame x.record x.seq true) }
      { s.queue p with inFlight := unmarkFirst (s.queue p).inFlight }) := by
  have hcan := (State.frameChoice_resend_iff.mp h).1
  show execResendFrameStart p true s = _
  unfold execResendFrameStart
  dsimp only
  rw [State.sampleRdy_frameChoice, h, State.sampleRdy_of_canStart hcan]
  simp only [resendOldest, State.onQueue_onPort, State.withPort_withPort, State.withPort_port_self,
    State.withPort_queue_self]

/-- The oldest unsent record is sent under the next sequence (R87). -/
theorem exec_noticeFrameStart_of_choice {r : Record} (h : s.frameChoice p = some (.fresh r)) :
    exec (.noticeFrameStart p true) s = .next (s.withPort p
      { s.port p with
        rdy := true
        delivery := { (s.port p).delivery with
          nextSeq := (s.port p).delivery.nextSeq + 1
          timer := if (s.queue p).inFlight.isEmpty then some 0 else (s.port p).delivery.timer }
        tx := .notice (noticeFrame r (s.port p).delivery.nextSeq false) }
      { s.queue p with
        inFlight := (s.queue p).inFlight ++ [⟨r, (s.port p).delivery.nextSeq, false⟩]
        unsent := (s.queue p).unsent.drop 1 }) := by
  have hcan := (State.frameChoice_fresh_iff.mp h).1
  show execNoticeFrameStart p true s = _
  unfold execNoticeFrameStart
  dsimp only
  rw [State.sampleRdy_frameChoice, h, State.sampleRdy_of_canStart hcan]
  simp only [sendFresh, State.onQueue_onPort, State.withPort_withPort, State.withPort_port_self,
    State.withPort_queue_self]

end Starts

/-- A response is ready at a port with no request in service, or none that has its verdict. -/
theorem PortCtl.responseReady_none_iff {c : PortCtl} : c.responseReady = none ↔
    c.service = none ∨ ∃ h b, c.service = some ⟨h, b, none⟩ := by
  unfold PortCtl.responseReady
  cases hs : c.service with
  | none => simp
  | some v =>
    obtain ⟨h, b, r⟩ := v
    cases r <;> simp

theorem PortCtl.responseReady_of_response {c : PortCtl} {h : Header} {b : List Byte} {r : Response}
    (hs : c.service = some ⟨h, b, some r⟩) : c.responseReady = some (⟨h, b, some r⟩, r) := by
  unfold PortCtl.responseReady
  rw [hs]
  rfl

/-- The first marked record is found where it stands, and a re-send takes its mark. -/
theorem unmarkFirst_of_split {front back : List Sent} {x : Sent} (hfront : ∀ y ∈ front, y.marked = false)
    (hx : x.marked = true) : (front ++ x :: back).find? (·.marked) = some x ∧
      unmarkFirst (front ++ x :: back) = front ++ { x with marked := false } :: back := by
  induction front with
  | nil => exact ⟨List.find?_cons_of_pos hx, if_pos hx⟩
  | cons y front ih =>
    have hy := hfront y List.mem_cons_self
    obtain ⟨hfind, hunmark⟩ := ih fun z hz => hfront z (List.mem_cons_of_mem y hz)
    exact ⟨by simp [hy, hfind], by simp [unmarkFirst, hy, hunmark]⟩

theorem find?_marked_eq_none {l : List Sent} :
    l.find? (·.marked) = none ↔ ∀ y ∈ l, y.marked = false := by
  simp

/-! ### The parts of the statement -/

section Parts

variable {s : State} {p : Port}

/-- What no frame start but the one to come changes: nothing but the sample of RDYn (R169). -/
theorem frameStarts_refused (s : State) (p : Port) (rdy : Bool) :
    ((∃ h b r, (s.port p).service = some ⟨h, b, some r⟩) →
      exec (.resendFrameStart p rdy) s = .next (s.sampleRdy p rdy) ∧
      exec (.noticeFrameStart p rdy) s = .next (s.sampleRdy p rdy)) ∧
    ((s.port p).responseReady = none →
      exec (.responseFrameStart p rdy) s = .next (s.sampleRdy p rdy)) ∧
    ((s.port p).delivery.state ≠ .ready →
      exec (.resendFrameStart p rdy) s = .next (s.sampleRdy p rdy) ∧
      exec (.noticeFrameStart p rdy) s = .next (s.sampleRdy p rdy)) ∧
    ((∀ y ∈ (s.queue p).inFlight, y.marked = false) →
      exec (.resendFrameStart p rdy) s = .next (s.sampleRdy p rdy)) ∧
    ((∃ y ∈ (s.queue p).inFlight, y.marked = true) ∨ (s.queue p).unsent = [] ∨
        (s.port p).session.window ≤ (s.queue p).inFlight.length →
      exec (.noticeFrameStart p rdy) s = .next (s.sampleRdy p rdy)) := by
  refine ⟨?_, fun hnone => ?_, fun hstate => ⟨?_, ?_⟩, fun hmarks => ?_, fun hnot => ?_⟩
  · rintro ⟨h, b, r, hs⟩
    have hready := PortCtl.responseReady_of_response hs
    refine ⟨exec_resendFrameStart_of_other (.inr fun x hx => ?_),
      exec_noticeFrameStart_of_other (.inr fun x hx => ?_)⟩
    · obtain ⟨-, hnone, -⟩ := State.frameChoice_resend_iff.mp hx
      exact absurd (hready.symm.trans hnone) nofun
    · obtain ⟨-, hnone, -⟩ := State.frameChoice_fresh_iff.mp hx
      exact absurd (hready.symm.trans hnone) nofun
  · refine exec_responseFrameStart_of_other (.inr fun v r hx => ?_)
    exact absurd (hnone.symm.trans (State.frameChoice_response_iff.mp hx).2) nofun
  · refine exec_resendFrameStart_of_other (.inr fun x hx => ?_)
    obtain ⟨-, -, hready, -⟩ := State.frameChoice_resend_iff.mp hx
    exact hstate hready
  · refine exec_noticeFrameStart_of_other (.inr fun r hx => ?_)
    obtain ⟨-, -, hready, -⟩ := State.frameChoice_fresh_iff.mp hx
    exact hstate hready
  · refine exec_resendFrameStart_of_other (.inr fun x hx => ?_)
    obtain ⟨-, -, -, hfind⟩ := State.frameChoice_resend_iff.mp hx
    exact absurd ((find?_marked_eq_none.mpr hmarks).symm.trans hfind) nofun
  · refine exec_noticeFrameStart_of_other (.inr fun r hx => ?_)
    obtain ⟨-, -, -, hfind, ⟨rest, hunsent⟩, hwindow⟩ := State.frameChoice_fresh_iff.mp hx
    rcases hnot with ⟨y, hy, hm⟩ | hempty | hfull
    · exact absurd (hm.symm.trans (find?_marked_eq_none.mp hfind y hy)) (by decide)
    · exact absurd (hunsent.symm.trans hempty) nofun
    · exact absurd hwindow (Nat.not_lt.mpr hfull)

/-- With RDYn deasserted no frame starts. -/
theorem frameStart_of_deasserted {i : Instr} (hi : i = .responseFrameStart p false ∨
    i = .resendFrameStart p false ∨ i = .noticeFrameStart p false) :
    exec i s = .next (s.sampleRdy p false) := by
  rcases hi with rfl | rfl | rfl
  · exact exec_responseFrameStart_of_other (.inl rfl)
  · exact exec_resendFrameStart_of_other (.inl rfl)
  · exact exec_noticeFrameStart_of_other (.inl rfl)

/-- While a frame is being sent a frame start changes nothing. -/
theorem frameStart_of_sending (hsending : (s.port p).tx ≠ .free) {i : Instr} {rdy : Bool}
    (hi : i = .responseFrameStart p rdy ∨ i = .resendFrameStart p rdy ∨ i = .noticeFrameStart p rdy) :
    exec i s = .next s := by
  have hnone : s.frameChoice p = none := State.frameChoice_of_not_canStart fun h => hsending h.2
  have hsample : exec i s = .next (s.sampleRdy p rdy) := by
    rcases hi with rfl | rfl | rfl
    · exact exec_responseFrameStart_of_other (.inr (by simp [hnone]))
    · exact exec_resendFrameStart_of_other (.inr (by simp [hnone]))
    · exact exec_noticeFrameStart_of_other (.inr (by simp [hnone]))
  rwa [State.sampleRdy_of_sending hsending] at hsample

end Parts

/-- The end of a response frame frees the transmitter, and ends a service not already ended (R148,
R169). -/
theorem exec_endOfService {s : State} {p : Port} {f : List Byte} {inService : Bool}
    (h : (s.port p).tx = .response f inService) : exec (.endOfService p) s =
      .next (s.onPort p fun c =>
        { c with tx := .free, service := if inService then none else c.service }) := by
  show execEndOfService p s = _
  unfold execEndOfService
  rw [h]

theorem exec_noticeFrameEnd {s : State} {p : Port} {f : List Byte} (h : (s.port p).tx = .notice f) :
    exec (.noticeFrameEnd p) s = .next (s.onPort p fun c => { c with tx := .free }) := by
  show execNoticeFrameEnd p s = _
  unfold execNoticeFrameEnd
  rw [h]

/-- Settles O57: each frame start by what the transmitter would start (`State.frameChoice_response_iff`,
`State.frameChoice_resend_iff`, `State.frameChoice_fresh_iff`), and the two frame ends. -/
theorem framesSentInOrder : Obligations.FramesSentInOrder := by
  refine ⟨?_, fun s p f => ⟨exec_endOfService, exec_endOfService, exec_noticeFrameEnd⟩⟩
  intro s p hrunning c q d sampled noResponse
  have hsampled (hfree : c.tx = .free) (rdy : Bool) : s.sampleRdy p rdy = sampled rdy := by
    rw [State.sampleRdy_of_canStart ⟨hrunning, hfree⟩]
    simp [State.withPort, State.queue, sampled, c]
  have hnoResponse : noResponse → (s.port p).responseReady = none := PortCtl.responseReady_none_iff.mpr
  refine ⟨?_, ?_, ?_, ?_, ?_⟩
  · intro h b r hfree hservice
    have hchoice := State.frameChoice_response_iff.mpr
      ⟨⟨hrunning, hfree⟩, PortCtl.responseReady_of_response hservice⟩
    rw [exec_responseFrameStart_of_choice hchoice]
    simp [State.withPort, State.queue]
    rfl
  · intro front x back hfree hnone hready hflight hfront hx
    obtain ⟨hfind, hunmark⟩ := unmarkFirst_of_split (back := back) hfront hx
    rw [← hflight] at hfind hunmark
    have hchoice := State.frameChoice_resend_iff.mpr
      ⟨⟨hrunning, hfree⟩, hnoResponse hnone, hready, hfind⟩
    rw [exec_resendFrameStart_of_choice hchoice, hunmark]
    rfl
  · intro r rest hfree hnone hready hmarks hunsent hwindow
    have hchoice := State.frameChoice_fresh_iff.mpr ⟨⟨hrunning, hfree⟩, hnoResponse hnone, hready,
      find?_marked_eq_none.mpr hmarks, ⟨rest, hunsent⟩, hwindow⟩
    rw [exec_noticeFrameStart_of_choice hchoice, hunsent]
    simp only [List.isEmpty_iff]
    rfl
  · intro hfree rdy
    have hrefused := frameStarts_refused s p rdy
    rw [hsampled hfree] at hrefused
    obtain ⟨hresponse, hnone, hrest⟩ := hrefused
    exact ⟨hresponse, fun h => hnone (hnoResponse h), hrest⟩
  · intro i rdy hi
    refine ⟨fun hfree hdeasserted => ?_, fun hsending => frameStart_of_sending hsending hi⟩
    subst hdeasserted
    rw [frameStart_of_deasserted hi, hsampled hfree]

end Sys2Proof.Machine
end

section
/-! PROOFS. Every step keeps the law of the held port domain by itself (R149, R164, R170, R172, R173), on
which the law of the lease rests (O13). -/

namespace Sys2Proof.Machine

/-! ### A held port -/

/-- Nothing that can befall a port while the port domain is held takes it from its reset values. -/
theorem PortCtl.Held.move {running : Bool} {c c' : PortCtl} {q q' : NoticeQueue}
    (h : running = false → c.Held) (hmove : PortMove running c q c' q') (hr : running = false) :
    c'.Held := by
  have hc := h hr
  subst hr
  cases hmove with
  | answered body => exact { hc with service := by simp [PortCtl.respond, hc.service] }
  | freed service hservice =>
    exact { hc with tx := rfl, service := hservice.elim id fun e => e.trans hc.service }
  | tornDown cause =>
    exact { hc with
      session := rfl, service := rfl, cache := rfl, staging := rfl, delivery := rfl
      tx := by simp [PortCtl.tornDown, hc.tx] }
  | placed content => exact hc
  | acked hopen => exact absurd (hopen.symm.trans hc.session) (by decide)
  | turned hrunning => cases hrunning
  | opened hrunning => cases hrunning
  | resynced hrunning => cases hrunning
  | sent hrunning => cases hrunning
  | resent hrunning => cases hrunning
  | ticked hrunning => cases hrunning
  | round hrunning => cases hrunning
  | stalled hrunning => cases hrunning

theorem PortCtl.heldReset_held (c : PortCtl) : c.heldReset.Held := ⟨rfl, rfl, rfl, rfl, rfl, rfl, rfl⟩

/-! ### The law over the link -/

/-- The law of the held port domain, as the link of a state has it. -/
structure Link.HoldLawful (x : Link) : Prop where
  port : x.running = false → ∀ p, (x.ports.get p).Held
  lease : x.running = false → x.holder = none
  condition : x.running = !holdCond x.pf x.rst x.vddGood
  flag : x.flag = standbyCond x.pf x.vddGood
  wake : x.wake = true → x.flag = true

theorem State.link_holdLawful_iff {s : State} : s.link.HoldLawful ↔ HoldLaw s := by
  constructor
  · intro h
    refine ⟨fun hr p => ?_, h.lease, h.condition, h.flag, h.wake⟩
    obtain ⟨h1, h2, h3, h4, h5, h6, h7⟩ := h.port hr p
    exact ⟨h1, h2, h3, h4, h5, h6, h7⟩
  · intro h
    refine ⟨fun hr p => ?_, h.lease, h.condition, h.flag, h.wake⟩
    obtain ⟨h1, h2, h3, h4, h5, h6, h7⟩ := h.ports hr p
    exact ⟨h1, h2, h3, h4, h5, h6, h7⟩

/-- A change of an input puts every port of a held domain in its reset values, and the flag, the latch and
the port-domain state follow the inputs (R172, R173, R175). -/
theorem State.inputs_holdLawful {s : State} (hs : s.link.HoldLawful) (pf rst good : Bool)
    (straps : Straps) : (s.inputs pf rst good straps).link.HoldLawful := by
  rcases s.inputs_cases pf rst good straps with ⟨hhold, hr, e⟩ | ⟨hhold, hr, e⟩ | ⟨hhold, hr, e⟩ |
    ⟨hhold, hr, e⟩ <;> rw [e]
  · rw [State.holdDomain_link]
    refine ⟨fun _ p => ?_, fun _ => rfl, ?_, rfl, wake_of_and⟩
    · show ((s.ports.map PortCtl.heldReset).get p).Held
      rw [Quad.get_map]
      exact PortCtl.heldReset_held _
    · show false = !holdCond pf rst good
      rw [hhold]
      rfl
  · refine ⟨fun _ => hs.port hr, fun _ => hs.lease hr, ?_, rfl, wake_of_and⟩
    show false = !holdCond pf rst good
    rw [hhold]
    rfl
  · refine ⟨hs.port, hs.lease, ?_, rfl, wake_of_and⟩
    show s.standby.running = !holdCond pf rst good
    rw [hhold, hr]
    rfl
  · refine ⟨nofun, nofun, ?_, rfl, wake_of_and⟩
    show true = !holdCond pf rst good
    rw [hhold]
    rfl

theorem holdLawful_invariant : PortInvariant fun s => s.link.HoldLawful where
  frame hs h := h ▸ hs
  moved := by
    intro s p c q hs hmove
    refine ⟨fun hr r => ?_, hs.lease, hs.condition, hs.flag, hs.wake⟩
    show ((s.withPort p c q).port r).Held
    rw [State.withPort_port]
    split
    · exact PortCtl.Held.move (fun hr => hs.port hr p) hmove hr
    · exact hs.port hr r
  leased lease hs h :=
    ⟨hs.port, fun hr => h.resolve_right fun hrunning => absurd (hrunning.symm.trans hr) (by decide),
      hs.condition, hs.flag, hs.wake⟩
  woken hs := ⟨hs.port, hs.lease, hs.condition, hs.flag, fun h => (Bool.or_eq_true_iff.mp h).elim hs.wake id⟩
  inputs pf rst good straps hs := State.inputs_holdLawful hs pf rst good straps
  cold s pf rst good := (coldStart_lawful s pf rst good).imp fun _ ht =>
    ⟨fun hr p => (ht.port p).held hr, ht.lease, ht.condition, ht.flag, ht.wake⟩

/-- Every command keeps the law of the held port domain. -/
theorem HoldLaw.exec (c : Instr) {s : State} (hs : HoldLaw s) : Answers HoldLaw (exec c s) :=
  (holdLawful_invariant.exec c s (State.link_holdLawful_iff.mpr hs)).imp fun _ =>
    State.link_holdLawful_iff.mp

end Sys2Proof.Machine
end

section
/-! PROOFS. The leasing of a state: the items the law of the lease speaks of, and the moves of them that
keep the law (R100). -/

namespace Sys2Proof.Machine

/-! ### The leasing of a state -/

/-- The items the law of the lease speaks of: the lease, the commit slot, which ports have an OPEN session,
and the session-end and lease-end claims on their way. -/
structure Leasing where
  lease : LeaseUnit
  slot : CommitSlot
  sessions : Quad Bool
  sessionEnds : List Port
  leaseEnds : List LeaseEndMsg

/-- The leasing of a state. -/
def State.leasing (s : State) : Leasing :=
  { lease := s.lease, slot := s.time.slot, sessions := s.ports.map fun c => c.session.isOpen
    sessionEnds := s.transit.sessionEnds, leaseEnds := s.transit.leaseEnds }

/-- The law of the lease over these items. -/
structure Leasing.Lawful (x : Leasing) : Prop where
  holder : ∀ p, x.lease.holder = some p → x.sessions.get p = true ∨ p ∈ x.sessionEnds
  none : x.lease.holder = none → x.lease.remaining = 0
  range : x.lease.remaining ≤ 255
  pending : ∀ second p, x.slot = .pending second p →
    x.lease.holder = some p ∨ ∃ m ∈ x.leaseEnds, m.former = p

theorem State.leasing_session (s : State) (p : Port) :
    s.leasing.sessions.get p = (s.port p).session.isOpen := Quad.get_map _ _ _

theorem State.leasing_lawful_iff {s : State} : s.leasing.Lawful ↔ LeaseLaw s := by
  constructor
  · rintro ⟨hholder, hnone, hrange, hpending⟩
    exact ⟨fun p hp => s.leasing_session p ▸ hholder p hp, hnone, hrange, hpending⟩
  · rintro ⟨hholder, hnone, hrange, hpending⟩
    exact ⟨fun p hp => (s.leasing_session p).symm ▸ hholder p hp, hnone, hrange, hpending⟩

/-! ### The moves that keep the law -/

namespace Leasing.Lawful

variable {x : Leasing} {p : Port}

/-- The lease ends, with its claim to the Timebase; the sessions no longer matter (R101). -/
theorem ended (hx : x.Lawful) (hp : x.lease.holder = some p) (sessions : Quad Bool) (ends : List Port)
    (stamp : Nat) : Lawful { x with
      lease := ⟨Option.none, 0⟩, sessions, sessionEnds := ends
      leaseEnds := x.leaseEnds ++ [⟨stamp, p⟩] } where
  holder := nofun
  none _ := rfl
  range := Nat.zero_le _
  pending second q hq := by
    right
    rcases hx.pending second q hq with h | ⟨m, hm, rfl⟩
    · exact ⟨⟨stamp, p⟩, by simp, Option.some.inj (hp.symm.trans h)⟩
    · exact ⟨m, List.mem_append_left _ hm, rfl⟩

/-- With no holder the sessions do not matter. -/
theorem unheld (hx : x.Lawful) (hp : x.lease.holder = Option.none) (sessions : Quad Bool)
    (ends : List Port) : Lawful { x with sessions, sessionEnds := ends } :=
  ⟨fun q hq => absurd (hp.symm.trans hq) (by simp), hx.none, hx.range, hx.pending⟩

/-- The claims on their way of a port that does not hold the lease are taken (R109). -/
theorem endsTaken (hx : x.Lawful) {ends : List Port} (hp : x.lease.holder ≠ some p)
    (hends : ∀ q, q ≠ p → q ∈ x.sessionEnds → q ∈ ends) : Lawful { x with sessionEnds := ends } where
  holder q hq := (hx.holder q hq).imp_right (hends q fun e => hp (e ▸ hq))
  none := hx.none
  range := hx.range
  pending := hx.pending

/-- A port with an OPEN session takes a lease that no port holds (R104). -/
theorem granted (hx : x.Lawful) (hnone : x.lease.holder = Option.none) (hopen : x.sessions.get p = true)
    {d : Nat} (hd : d ≤ 255) : Lawful { x with lease := ⟨some p, d⟩ } where
  holder q hq := by
    cases hq
    exact .inl hopen
  none := nofun
  range := hd
  pending second q hq :=
    (hx.pending second q hq).elim (fun h => absurd (hnone.symm.trans h) (by simp)) .inr

/-- The remaining seconds of a held lease are set (R104, R105, R107). -/
theorem counted (hx : x.Lawful) (hp : x.lease.holder = some p) {d : Nat} (hd : d ≤ 255) :
    Lawful { x with lease := ⟨some p, d⟩ } where
  holder q hq := hx.holder q (hp.trans hq)
  none := nofun
  range := hd
  pending second q hq := (hx.pending second q hq).imp_left hp.symm.trans

/-- With the commit slot EMPTY no lease-end claim is needed (R102). -/
theorem emptied (hx : x.Lawful) (leaseEnds : List LeaseEndMsg) :
    Lawful { x with slot := .empty, leaseEnds } := ⟨hx.holder, hx.none, hx.range, nofun⟩

/-- The holder's commit becomes PENDING (R116). -/
theorem staged (hx : x.Lawful) (hp : x.lease.holder = some p) (second : Nat) :
    Lawful { x with slot := .pending second p } where
  holder := hx.holder
  none := hx.none
  range := hx.range
  pending n q hq := by
    cases hq
    exact .inl hp

/-- A session opens (R140). -/
theorem opened (hx : x.Lawful) (p : Port) : Lawful { x with sessions := x.sessions.set p true } where
  holder q hq := by
    by_cases h : q = p
    · exact .inl (by rw [h, Quad.get_set_self])
    · rw [Quad.get_set_ne _ h]
      exact hx.holder q hq
  none := hx.none
  range := hx.range
  pending := hx.pending

/-- A session is torn down, with its session-end claim to the Lease Unit (R147). -/
theorem tornDown (hx : x.Lawful) (p : Port) : Lawful { x with
    sessions := x.sessions.set p false, sessionEnds := x.sessionEnds ++ [p] } where
  holder q hq := by
    by_cases h : q = p
    · exact .inr (by simp [h])
    · rw [Quad.get_set_ne _ h]
      exact (hx.holder q hq).imp_right (List.mem_append_left _)
  none := hx.none
  range := hx.range
  pending := hx.pending

end Leasing.Lawful

/-! ### What leaves the leasing alone -/

theorem Quad.map_set {α β : Type} (f : α → β) (q : Quad α) (p : Port) (a : α) :
    (q.set p a).map f = (q.map f).set p (f a) := by cases p <;> rfl

/-- What a change of one port makes of the leasing. -/
theorem State.onPort_leasing (s : State) (p : Port) (f : PortCtl → PortCtl) :
    (s.onPort p f).leasing =
      { s.leasing with sessions := s.leasing.sessions.set p (f (s.port p)).session.isOpen } :=
  congrArg (fun q => { s.leasing with sessions := q }) (Quad.map_set _ _ _ _)

/-- A change of a port that neither opens nor ends its session. -/
theorem State.onPort_leasing_of_isOpen {s : State} {p : Port} {f : PortCtl → PortCtl}
    (h : (f (s.port p)).session.isOpen = (s.port p).session.isOpen) :
    (s.onPort p f).leasing = s.leasing := by
  rw [State.onPort_leasing, h, ← s.leasing_session, Quad.set_get]

@[simp] theorem State.respond_leasing (s : State) (p : Port) (body : List Byte) :
    (s.respond p body).leasing = s.leasing := State.onPort_leasing_of_isOpen rfl

@[simp] theorem State.serving_leasing (s : State) (p : Port) (h : Header) (body : List Byte) :
    (s.serving p h body).leasing = s.leasing :=
  State.onPort_leasing_of_isOpen (by rw [PortCtl.serving_session, Session.reloaded_isOpen])

@[simp] theorem State.resync_leasing (s : State) (p : Port) : (s.resync p).leasing = s.leasing :=
  State.onPort_leasing_of_isOpen (s := s.onQueue p NoticeQueue.returnToUnsent) rfl

@[simp] theorem State.sampleRdy_leasing (s : State) (p : Port) (rdy : Bool) :
    (s.sampleRdy p rdy).leasing = s.leasing := by
  unfold State.sampleRdy
  split
  · exact State.onPort_leasing_of_isOpen rfl
  · rfl

@[simp] theorem State.place_leasing (s : State) (i : SlotNo) (e : Entry) (ref : Reference) :
    (s.place i e ref).leasing = s.leasing :=
  State.place_keeps (P := fun t => t.leasing = s.leasing) (fun _ _ h => h) (fun _ _ h => h)
    (fun _ _ h => h) (fun _ h => h) rfl

@[simp] theorem State.releaseEntries_leasing (s : State) (p : Port) :
    (s.releaseEntries p).leasing = s.leasing :=
  State.releaseEntries_keeps (P := fun t => t.leasing = s.leasing) (fun _ _ h => h) rfl

theorem releaseEntries_foldl_leasing (l : List Port) (s : State) :
    (l.foldl State.releaseEntries s).leasing = s.leasing := by
  induction l generalizing s with
  | nil => rfl
  | cons p rest ih => rw [List.foldl_cons, ih, State.releaseEntries_leasing]

theorem epochEndSlot_foldl_leasing (l : List SlotNo) (s : State) :
    (l.foldl epochEndSlot s).leasing = s.leasing :=
  epochEnd_keeps (P := fun t => t.leasing = s.leasing)
    (fun t i _ _ _ ht => (t.place_leasing i _ _).trans ht) rfl l

theorem visitEntry_leasing (r : Rescan) (i : SlotNo) (e : Entry) (s : State) :
    (visitEntry r i e s).leasing = s.leasing := by
  rcases visitEntry_cases r i e s with ⟨st, ref, h⟩ | h | h <;> rw [h]
  · exact s.place_leasing _ _ _
  · rfl

theorem applyFiring_leasing (c : FiringClaim) (e : Entry) (s : State) :
    (applyFiring c e s).leasing = s.leasing := by
  have hplace := s.place_leasing c.handle.slot (e.fired c) c.next.reference
  unfold applyFiring State.handWake
  dsimp only
  split <;> split <;> exact hplace

theorem applyResult_leasing (c : ResultClaim) (e : Entry) (s : State) :
    (applyResult c e s).leasing = s.leasing := by
  unfold applyResult
  split <;> exact s.place_leasing _ _ _

theorem lookAt_leasing (m : LookMsg) (s : State) : (lookAt m s).leasing = s.leasing := by
  unfold lookAt
  dsimp only
  split <;> rfl

theorem placeFor_foldl_leasing (content : Content) (set : PortSet) (l : List Port) (s : State) :
    (l.foldl (placeFor content set) s).leasing = s.leasing := by
  induction l generalizing s with
  | nil => rfl
  | cons p rest ih =>
    refine (ih _).trans ?_
    unfold placeFor
    split <;> rfl

theorem kickVerdict_leasing (k : KickMsg) (body : List Byte) (s : State) :
    (kickVerdict k body s).leasing = s.leasing := by
  unfold kickVerdict
  split
  · exact s.respond_leasing _ _
  · rfl

theorem takeAck_leasing (p : Port) (seq : Fin 16) (s : State) : (takeAck p seq s).leasing = s.leasing := by
  unfold takeAck
  split
  · split
    · rfl
    · exact State.onPort_leasing_of_isOpen (s := s.onQueue p _) rfl
  · rfl

theorem acceptOther_leasing (p : Port) (bytes : List Byte) (s : State) :
    (acceptOther p bytes s).leasing = s.leasing :=
  State.onPort_leasing_of_isOpen (by
    show ((s.port p).frameTaken bytes).session.reloaded.isOpen = _
    rw [Session.reloaded_isOpen, PortCtl.frameTaken_session])

theorem countAdvance_leasing (s : State) : (countAdvance s).leasing = s.leasing := by
  unfold countAdvance; dsimp only; split <;> rfl

theorem moveInstant_leasing (a : Advance) (s : State) : (moveInstant a s).leasing = s.leasing := by
  unfold moveInstant
  dsimp only
  cases a.done <;> (split <;> rfl)

/-! ### What moves the leasing -/

@[simp] theorem State.teardown_leasing (s : State) (p : Port) (cause : SessionEnd) :
    (s.teardown p cause).leasing = { s.leasing with
      sessions := s.leasing.sessions.set p false, sessionEnds := s.leasing.sessionEnds ++ [p] } :=
  congrArg (fun q => { s.leasing with sessions := q, sessionEnds := s.leasing.sessionEnds ++ [p] })
    (Quad.map_set _ _ _ _)

theorem closeWith_leasing (p : Port) (h : Header) (body response : List Byte) (s : State) :
    (closeWith p h body response s).leasing = (s.teardown p .close).leasing :=
  State.onPort_leasing_of_isOpen rfl

/-- The end of a held lease. -/
theorem State.endLease_leasing {s : State} {p : Port} (hp : s.lease.holder = some p)
    (cause : Option LeaseCause) : ∃ stamp, (s.endLease cause).leasing = { s.leasing with
      lease := ⟨none, 0⟩, leaseEnds := s.leasing.leaseEnds ++ [⟨stamp, p⟩] } := by
  rcases s.endLease_cases cause with ⟨h, -⟩ | ⟨q, h, -, e⟩ | ⟨q, c, h, -, e⟩
  · rw [h] at hp
    cases hp
  all_goals
    cases hp.symm.trans h
    rw [e]
    exact ⟨_, rfl⟩

theorem State.endLease_of_none {s : State} (hp : s.lease.holder = none) (cause : Option LeaseCause) :
    s.endLease cause = s := by
  unfold State.endLease
  rw [hp]

theorem State.takeLeaseEnd_leasing (s : State) (m : LeaseEndMsg) :
    (s.takeLeaseEnd m).leasing = { s.leasing with slot := .empty } := by
  rw [s.takeLeaseEnd_frame m]
  unfold State.takeLeaseEnd
  dsimp only
  split <;> rfl

/-- The lease-end claims on their way leave the commit slot as it is or EMPTY. -/
theorem State.settleLeaseEnds_leasing (s : State) :
    s.settleLeaseEnds.leasing = s.leasing ∨
    s.settleLeaseEnds.leasing = { s.leasing with slot := .empty, leaseEnds := [] } := by
  have hfold (l : List LeaseEndMsg) : ∀ t : State,
      (l.foldl State.takeLeaseEnd t).leasing = t.leasing ∨
      (l.foldl State.takeLeaseEnd t).leasing = { t.leasing with slot := .empty } := by
    induction l with
    | nil => exact fun t => .inl rfl
    | cons m rest ih =>
      intro t
      refine .inr ?_
      rcases ih (t.takeLeaseEnd m) with h | h <;> rw [List.foldl_cons, h, State.takeLeaseEnd_leasing]
  unfold State.settleLeaseEnds
  dsimp only
  cases hends : s.transit.leaseEnds with
  | nil =>
    left
    show ({ s.leasing with leaseEnds := [] } : Leasing) = s.leasing
    rw [← hends]
    rfl
  | cons m rest =>
    right
    rw [List.foldl_cons]
    rcases hfold rest (State.takeLeaseEnd { s with transit := { s.transit with leaseEnds := [] } } m)
      with h | h <;> rw [h, State.takeLeaseEnd_leasing] <;> rfl

end Sys2Proof.Machine
end

section
/-! PROOFS. Every step keeps the law of the lease (O13). -/

namespace Sys2Proof.Machine

/-- The leasing of a state obeys the law of the lease. -/
def Leased (s : State) : Prop := s.leasing.Lawful

theorem Leased.of_leasing {s t : State} (hs : Leased s) (h : t.leasing = s.leasing) : Leased t := by
  rw [Leased, h]
  exact hs

namespace Leased

variable {s : State}

/-! ### The end of the lease and the claims a request takes on its way -/

theorem endLease (hs : Leased s) (cause : Option LeaseCause) : Leased (s.endLease cause) := by
  cases hp : s.lease.holder with
  | none =>
    rw [State.endLease_of_none hp]
    exact hs
  | some p =>
    obtain ⟨stamp, h⟩ := State.endLease_leasing hp cause
    rw [Leased, h]
    exact hs.ended hp _ _ stamp

/-- Session-end claims of a port are taken off their way and then by the Lease Unit (R109). -/
theorem takeSessionEnd (hs : Leased s) (p : Port) {ends : List Port}
    (hends : ∀ q, q ≠ p → q ∈ s.transit.sessionEnds → q ∈ ends) :
    Leased (({ s with transit := { s.transit with sessionEnds := ends } }).takeSessionEnd p) := by
  unfold State.takeSessionEnd
  split
  · rename_i hp
    obtain ⟨stamp, h⟩ := State.endLease_leasing hp (some .reset)
    rw [Leased, h]
    exact Leasing.Lawful.ended (x := s.leasing) hs hp _ ends stamp
  · rename_i hp
    exact Leasing.Lawful.endsTaken (x := s.leasing) hs hp hends

theorem settleSessionEnds (hs : Leased s) (p : Port) : Leased (s.settleSessionEnds p) := by
  unfold State.settleSessionEnds
  split
  · exact hs.takeSessionEnd p fun q hq hmem => List.mem_filter.mpr ⟨hmem, by simpa using hq⟩
  · exact hs

theorem takeLeaseEnd (hs : Leased s) (m : LeaseEndMsg) (rest : List LeaseEndMsg) :
    Leased (({ s with transit := { s.transit with leaseEnds := rest } }).takeLeaseEnd m) := by
  rw [Leased, State.takeLeaseEnd_leasing]
  exact hs.emptied rest

theorem settleLeaseEnds (hs : Leased s) : Leased s.settleLeaseEnds := by
  rw [Leased]
  rcases s.settleLeaseEnds_leasing with h | h <;> rw [h]
  · exact hs
  · exact hs.emptied []

theorem settleLeaseEnds_lease (s : State) : s.settleLeaseEnds.lease = s.lease := by
  rcases s.settleLeaseEnds_leasing with h | h <;> exact congrArg Leasing.lease h

/-! ### The way of a request to its act -/

/-- A change of a port that neither opens nor ends its session. -/
theorem quiet {p : Port} {f : PortCtl → PortCtl} (hs : Leased s)
    (h : (f (s.port p)).session.isOpen = (s.port p).session.isOpen) : Leased (s.onPort p f) :=
  hs.of_leasing (State.onPort_leasing_of_isOpen h)

theorem respond {p : Port} {body : List Byte} (hs : Leased s) : Leased (s.respond p body) := hs.quiet rfl

theorem serving {p : Port} {h : Header} {body : List Byte} (hs : Leased s) : Leased (s.serving p h body) :=
  hs.of_leasing (s.serving_leasing p h body)

open PortInvariant (ActKeeps)

theorem serve {p : Port} {h : Header} {body : List Byte} {lengthOk gated : Bool} {act : State → State}
    (hact : ActKeeps Leased p gated act) (hs : Leased s) :
    Leased (serve p h body lengthOk gated act s) := by
  rcases serve_cases p h body lengthOk gated act s with ⟨-, e⟩ | ⟨-, -, e⟩ | ⟨-, -, e⟩ |
    ⟨-, -, k, -, e⟩ | ⟨-, -, e⟩ | ⟨-, -, -, -, e⟩ | ⟨⟨⟨hl, -⟩, -⟩, -, hg, e⟩ <;> rw [e]
  · exact hs
  · exact hs.quiet rfl
  · exact hs.quiet (by rw [PortCtl.frameTaken_session])
  · exact hs.quiet (by
      show ((s.port p).serving h body).session.isOpen = _
      rw [PortCtl.serving_session, Session.reloaded_isOpen])
  · exact hs.serving.respond
  · exact hs.serving.respond
  · have hrunning := State.running_of_listening hl
    refine hact _ hs.serving hrunning fun g => ?_
    rw [State.serving_port_self, PortCtl.serving_session, Session.reloaded_isOpen]
    exact hg g

theorem request {f : Phase} {p : Port} {h : Header} {body : List Byte} {lengthOk gated : Bool}
    {act : State → State} (hs : Leased s) (hact : ActKeeps Leased p gated act) :
    Answers Leased (.next (Machine.request f p h body lengthOk gated act s)) := by
  refine answers_next.mpr ?_
  cases f with
  | whole => exact hs.serve hact
  | accepted => exact hs.serve fun _ ht _ _ => ht
  | handedOn =>
    rcases request_handedOn_cases p h body lengthOk gated act s with e | ⟨hr, -, -, hg, e⟩ <;> rw [e]
    · exact hs
    · exact hact s hs hr hg

/-- A request whose act leaves the leasing alone. -/
theorem request_frame {f : Phase} {p : Port} {h : Header} {body : List Byte} {lengthOk gated : Bool}
    {act : State → State} (hs : Leased s) (hact : ∀ t, (act t).leasing = t.leasing) :
    Answers Leased (.next (Machine.request f p h body lengthOk gated act s)) :=
  hs.request fun t ht _ _ => ht.of_leasing (hact t)

/-- Past the gate the port holds the lease (R103). -/
theorem leaseGate {p : Port} {gated : Bool} {act : State → State}
    (hact : ∀ t, Leased t → t.lease.holder = some p → Leased (act t)) :
    ActKeeps Leased p gated (leaseGate p act) := by
  intro t ht _ _
  unfold Machine.leaseGate
  dsimp only
  split
  · exact hact _ (ht.settleSessionEnds p) ‹_›
  · exact (ht.settleSessionEnds p).respond

theorem throughGate {p : Port} {gated : Bool} {act : State → State}
    (hact : ∀ t, Leased t → t.lease.holder = some p → Leased (act t)) :
    ActKeeps Leased p gated (throughGate p act) :=
  leaseGate fun t ht hp => hact _ ht.settleLeaseEnds (by rw [settleLeaseEnds_lease]; exact hp)

/-! ### The acts of requests at the Port Controller -/

theorem teardown (hs : Leased s) (p : Port) (cause : SessionEnd) : Leased (s.teardown p cause) := by
  rw [Leased, State.teardown_leasing]
  exact hs.tornDown p

theorem openAct {p : Port} {body : List Byte} (hs : Leased s) : Leased (openAct p body s) := by
  cases hx : openSession body (s.port p).session.lastEnd with
  | none =>
    rw [openAct_of_none hx]
    exact hs.respond
  | some x =>
    rw [openAct_of_some hx]
    have hopen : x.isOpen = true := (openSession_lawful hx).1
    refine respond ?_
    have h := State.onPort_leasing s p fun c =>
      { c with cache := none, session := x, delivery := ⟨.ready, 0, 0, none⟩ }
    rw [hopen] at h
    exact of_leasing (s := s.onPort p _) (h.symm ▸ hs.opened p) rfl

theorem closeWith {p : Port} {h : Header} {body response : List Byte} (hs : Leased s) :
    Leased (closeWith p h body response s) :=
  (hs.teardown p .close).of_leasing (closeWith_leasing p h body response s)

theorem kickAct {p : Port} {h : Header} {body : List Byte} (hs : Leased s) :
    Leased (kickAct p h body s) := by
  unfold Machine.kickAct
  split
  · exact hs.respond
  · split
    · exact hs.respond
    · split
      · exact hs.closeWith
      · exact hs

/-! ### The acts of requests at the Lease Unit and the Timebase -/

theorem byteAt_le (body : List Byte) (i : Nat) : (byteAt body i).toNat ≤ 255 :=
  Nat.le_of_lt_succ (byteAt body i).isLt

/-- A grant finds the port's session OPEN, which the session gate has checked (R104, R139). -/
theorem acquireAct {p : Port} {body : List Byte} (hs : Leased s)
    (hopen : (s.port p).session.isOpen = true) : Leased (acquireAct p body s) := by
  have ht := hs.settleSessionEnds p
  have hsession : (s.settleSessionEnds p).leasing.sessions.get p = true := by
    rw [State.leasing_session, s.settleSessionEnds_frame]
    exact hopen
  unfold Machine.acquireAct
  dsimp only
  split
  · exact ht.respond
  · split
    · rename_i hnone
      exact respond (Leasing.Lawful.granted ht hnone hsession (byteAt_le body 1))
    · rename_i q hq
      split
      · rename_i hqp
        exact respond (Leasing.Lawful.counted ht (hqp ▸ hq) (byteAt_le body 1))
      · exact ht.respond

theorem renewAct {p : Port} {body : List Byte} (hs : Leased s) (hp : s.lease.holder = some p) :
    Leased (renewAct p body s) := by
  unfold Machine.renewAct
  dsimp only
  split
  · exact hs.respond
  · refine respond ?_
    rw [hp]
    exact Leasing.Lawful.counted hs hp (byteAt_le body 1)

theorem breakLeaseAct {p : Port} (hs : Leased s) : Leased (breakLeaseAct p s) := by
  have ht := hs.settleSessionEnds p
  unfold Machine.breakLeaseAct
  dsimp only
  split
  · exact ht.respond
  · split
    · exact ht.respond
    · exact (ht.endLease _).respond

/-- A commit of the holder that has passed its checks empties the slot or fills it for the holder
(R114, R116, R119). -/
theorem commitEffect {p : Port} {mode : CommitMode} {staged : Nat} (hs : Leased s)
    (hp : s.lease.holder = some p) : Leased (commitEffect p mode staged s).1 := by
  cases mode with
  | step => exact Leasing.Lawful.emptied hs _
  | onSecond => exact Leasing.Lawful.staged hs hp _
  | slew =>
    unfold Machine.commitEffect
    dsimp only
    split <;> exact Leasing.Lawful.emptied hs _

theorem commitAct {p : Port} {body : List Byte} (hs : Leased s) (hp : s.lease.holder = some p) :
    Leased (commitAct p body s) := by
  unfold Machine.commitAct
  split
  · exact hs.respond
  · exact respond (quiet (hs.commitEffect hp) rfl)

theorem cancelAct {p : Port} (hs : Leased s) : Leased (cancelAct p s) :=
  respond (Leasing.Lawful.emptied hs _)

end Leased

/-! ### Acts of requests that leave the leasing alone -/

theorem setTrimAct_leasing (p : Port) (body : List Byte) (s : State) :
    (setTrimAct p body s).leasing = s.leasing := by
  unfold setTrimAct
  dsimp only
  split <;> exact State.respond_leasing _ p _

theorem stageAct_leasing (p : Port) (body : List Byte) (s : State) :
    (stageAct p body s).leasing = s.leasing :=
  (State.respond_leasing _ p _).trans (State.onPort_leasing_of_isOpen rfl)

theorem whenNormal_leasing {p : Port} {act : State → State} {s : State}
    (hact : (act s).leasing = s.leasing) : (whenNormal p act s).leasing = s.leasing := by
  unfold whenNormal
  split
  · exact hact
  · exact s.respond_leasing p _

theorem whenCurrent_leasing {p : Port} {body : List Byte} {act : Handle → Entry → State → State}
    (hact : ∀ n e t, (act n e t).leasing = t.leasing) (s : State) :
    (whenNormal p (withCurrent p body act) s).leasing = s.leasing := by
  refine whenNormal_leasing ?_
  rcases withCurrent_cases p body act s with e | ⟨n, x, -, e⟩ <;> rw [e]
  · exact s.respond_leasing p _
  · exact hact n x s

theorem asOwner_leasing {p : Port} {body : List Byte} {act : Handle → Entry → State → State}
    (hact : ∀ n e t, (act n e t).leasing = t.leasing) (s : State) :
    (asOwner p body act s).leasing = s.leasing := by
  rcases asOwner_cases p body act s with ⟨st, e⟩ | ⟨n, x, -, -, e⟩ <;> rw [e]
  · exact s.respond_leasing p _
  · exact hact n x s

/-- An entry written and the request answered. -/
theorem State.place_respond_leasing (s : State) (i : SlotNo) (e : Entry) (ref : Reference) (p : Port)
    (body : List Byte) : ((s.place i e ref).respond p body).leasing = s.leasing :=
  (State.respond_leasing _ p body).trans (s.place_leasing i e ref)

theorem createAct_leasing (p : Port) (body : List Byte) (s : State) :
    (createAct p body s).leasing = s.leasing := by
  refine whenNormal_leasing ?_
  split
  · exact s.respond_leasing p _
  · split
    · exact s.respond_leasing p _
    · split
      · exact s.respond_leasing p _
      · exact s.place_respond_leasing _ _ _ p _

theorem armEntry_leasing (p : Port) (body : List Byte) (n : Handle) (e : Entry) (s : State) :
    (armEntry p body n e s).leasing = s.leasing := by
  unfold armEntry
  split
  · exact s.respond_leasing p _
  · split
    · exact s.respond_leasing p _
    · split
      · exact s.respond_leasing p _
      · dsimp only
        split
        · exact s.place_respond_leasing _ _ _ p _
        · exact s.respond_leasing p _

theorem suspendEntry_leasing (p : Port) (n : Handle) (e : Entry) (s : State) :
    (suspendEntry p n e s).leasing = s.leasing := by
  unfold suspendEntry
  split
  · exact s.respond_leasing p _
  · exact s.place_respond_leasing _ _ _ p _

theorem resumeEntry_leasing (p : Port) (n : Handle) (e : Entry) (s : State) :
    (resumeEntry p n e s).leasing = s.leasing := by
  unfold resumeEntry
  split
  · exact s.respond_leasing p _
  · split
    · exact s.respond_leasing p _
    · exact s.place_respond_leasing _ _ _ p _

theorem queryEntry_leasing (p : Port) (body : List Byte) (n : Handle) (e : Entry) (s : State) :
    (queryEntry p body n e s).leasing = s.leasing := by
  unfold queryEntry
  split <;> exact State.respond_leasing _ p _

theorem listAct_leasing (p : Port) (body : List Byte) (s : State) :
    (listAct p body s).leasing = s.leasing := by
  refine whenNormal_leasing ?_
  dsimp only
  split
  · exact s.respond_leasing p _
  · split <;> exact s.respond_leasing p _

theorem setQuotaAct_leasing (p : Port) (body : List Byte) (s : State) :
    (setQuotaAct p body s).leasing = s.leasing := by
  refine whenNormal_leasing ?_
  dsimp only
  split
  · exact s.respond_leasing p _
  · split
    · exact s.respond_leasing p _
    · repeat' split
      all_goals exact State.respond_leasing _ p _

theorem purgeEntry_leasing (p : Port) (n : Handle) (e : Entry) (s : State) :
    (purgeEntry p n e s).leasing = s.leasing := by
  unfold purgeEntry
  split <;> exact State.respond_leasing _ p _

namespace Leased

variable {s : State}

/-! ### Events of the Lease Unit, the Timebase and the port domain -/

/-- An oscillator second counts the lease down or ends it (R107). -/
theorem leaseSecond (hs : Leased s) : Leased (leaseSecond s) := by
  unfold Machine.leaseSecond
  split
  · split
    · exact hs
    · rename_i p hp
      split
      · exact hs.endLease _
      · dsimp only
        rw [hp]
        exact Leasing.Lawful.counted hs hp ((Nat.sub_le _ _).trans hs.range)
  · exact hs

/-- An advance leaves the commit slot as it is or empties it (R7). -/
theorem takeAdvance (hs : Leased s) : Leased (takeAdvance s) := by
  rcases takeAdvance_cases s with ⟨second, p, -, -, e⟩ | ⟨-, -, -, e⟩ | ⟨-, e⟩ <;> rw [e]
  · exact Leasing.Lawful.emptied hs _
  · exact hs
  · exact hs.of_leasing (moveInstant_leasing _ s)

/-- An oscillator second counts the keepalive down or tears the session down (R146). -/
theorem portSecond (hs : Leased s) (p : Port) : Leased (portSecond p s) := by
  unfold Machine.portSecond
  dsimp only
  split
  · split
    · exact hs
    · exact hs.teardown p _
    · exact hs.quiet rfl
  · exact hs

/-- A hold ends the lease before the session-end claims are dropped (R110, R173). -/
theorem holdDomain (hs : Leased s) : Leased s.holdDomain :=
  Leasing.Lawful.unheld (hs.endLease _) (s.endLease_holder _) _ []

/-- A held port domain starts with no lease, and had none (R110, R175). -/
theorem startDomain (hs : Leased s) (hp : s.lease.holder = none) (straps : Straps) :
    Leased (s.startDomain straps) := by
  have hlease : s.lease = ⟨none, 0⟩ := by
    have hzero := hs.none hp
    rw [← hp, ← hzero]
    rfl
  have ht := Leasing.Lawful.unheld hs hp (s.startDomain straps).leasing.sessions s.transit.sessionEnds
  rw [show s.leasing = { s.leasing with lease := ⟨none, 0⟩ } by rw [← hlease]; rfl] at ht
  exact ht

/-- A change of an input holds the port domain, starts one in which no port held the lease, or neither. -/
theorem inputs (hs : Leased s) (hheld : s.standby.running = false → s.lease.holder = none)
    (pf rst good : Bool) (straps : Straps) : Leased (s.inputs pf rst good straps) := by
  rcases s.inputs_cases pf rst good straps with ⟨-, -, e⟩ | ⟨-, -, e⟩ | ⟨-, -, e⟩ | ⟨-, hr, e⟩ <;> rw [e]
  · exact holdDomain hs
  · exact hs
  · exact hs
  · exact startDomain hs (hheld hr) straps

theorem coldStart (s : State) (pf rst : Bool) (good : Option Straps) :
    Answers Leased (execColdStart pf rst s good) := by
  have hcold : Leased (State.cold s.pending s.freeIndex pf rst good.isSome (good.getD s.pins)) :=
    ⟨nofun, fun _ => rfl, Nat.zero_le _, nofun⟩
  refine answers_next.mpr ?_
  split
  · split
    · exact hcold
    · exact hcold.startDomain rfl _
  · exact hcold

/-! ### Events at a port -/

theorem kickAtNamedPort (hs : Leased s) (q : Port) : Answers Leased (execKickAtNamedPort q s) := by
  refine answers_next.mpr ?_
  split
  · exact hs
  · dsimp only
    split
    · exact of_leasing (teardown (of_leasing hs rfl) q .kick) (kickVerdict_leasing _ _ _)
    · exact of_leasing hs (kickVerdict_leasing _ _ _)

theorem breakLine (hs : Leased s) (p : Port) : Answers Leased (execBreak p s) := by
  refine answers_next.mpr ?_
  split
  · have ht := hs.quiet (p := p)
      (f := fun c => { c.received (takeChar c.rx breakChar) with awaitMark := true }) rfl
    dsimp only
    split
    · exact ht.teardown p _
    · exact ht
  · exact hs

theorem ack (hs : Leased s) (p : Port) (h : Header) (body : List Byte) :
    Answers Leased (execAck p h body s) := by
  refine answers_next.mpr ?_
  split
  · exact hs
  · split
    · exact hs.quiet rfl
    · exact hs.of_leasing ((takeAck_leasing p _ _).trans (acceptOther_leasing p _ s))

theorem unusedFrame (hs : Leased s) (p : Port) (cls : UnusedClass) (h : Header) (body : List Byte) :
    Answers Leased (execUnusedFrame p cls h body s) := by
  refine answers_next.mpr ?_
  split
  · exact hs
  · split
    · exact hs.quiet rfl
    · exact hs.of_leasing (acceptOther_leasing p _ s)

theorem gap (hs : Leased s) (p : Port) : Answers Leased (execGap p s) := by
  refine answers_next.mpr ?_
  split
  · split
    · exact hs
    · exact hs.quiet rfl
  · exact hs

/-- A frame start writes one port's controller and queue, or samples RDYn alone. -/
theorem frameStart (hs : Leased s) (p : Port) (rdy : Bool) :
    Answers Leased (execResponseFrameStart p rdy s) ∧ Answers Leased (execNoticeFrameStart p rdy s) ∧
      Answers Leased (execResendFrameStart p rdy s) := by
  have ht : Leased (s.sampleRdy p rdy) := hs.of_leasing (s.sampleRdy_leasing p rdy)
  refine ⟨answers_next.mpr ?_, answers_next.mpr ?_, answers_next.mpr ?_⟩ <;> split
  · exact ht.quiet rfl
  · exact ht
  · exact ht.of_leasing (State.onPort_leasing_of_isOpen (s := (s.sampleRdy p true).onQueue p _) rfl)
  · exact ht
  · exact ht.of_leasing (State.onPort_leasing_of_isOpen (s := (s.sampleRdy p true).onQueue p _) rfl)
  · exact ht

theorem tenMsTick (hs : Leased s) : Answers Leased (execTenMsTick s) := by
  refine answers_next.mpr ?_
  split <;> exact hs

theorem ackTimeout (hs : Leased s) (p : Port) : Answers Leased (execAckTimeout p s) := by
  refine answers_next.mpr ?_
  split
  · split
    · exact hs.of_leasing (State.onPort_leasing_of_isOpen (s := s.onQueue p _) rfl)
    · exact hs.of_leasing (State.onPort_leasing_of_isOpen (s := s.onQueue p _) rfl)
  · exact hs

/-! ### Events of the Schedule Table -/

theorem firingClaim (hs : Leased s) : Answers Leased (execFiringClaim s) := by
  refine answers_next.mpr ?_
  split
  · exact hs
  · dsimp only
    split
    · exact hs
    · split
      · exact hs.of_leasing (applyFiring_leasing _ _ _)
      · exact hs

theorem resultClaim (hs : Leased s) : Answers Leased (execResultClaim s) := by
  refine answers_next.mpr ?_
  split
  · exact hs
  · dsimp only
    split
    · exact hs
    · split
      · exact hs.of_leasing (applyResult_leasing _ _ _)
      · exact hs

theorem searchRunComplete (hs : Leased s) : Answers Leased (execSearchRunComplete s) := by
  refine answers_next.mpr ?_
  split
  · split <;> exact hs
  · exact hs

theorem stepClaim (hs : Leased s) : Answers Leased (execStepClaim s) := by
  refine answers_next.mpr ?_
  split
  · exact hs
  · split
    · exact hs
    · split <;> exact hs

theorem rescanVisit (hs : Leased s) : Answers Leased (execRescanVisit s) := by
  refine answers_next.mpr ?_
  split
  · exact hs
  · split
    · dsimp only
      split
      · exact hs.of_leasing (visitEntry_leasing _ _ _ s)
      · exact hs
    · exact hs

theorem rescanEnd (hs : Leased s) : Answers Leased (execRescanEnd s) := by
  refine answers_next.mpr ?_
  split
  · exact hs
  · split
    · exact hs.of_leasing (releaseEntries_foldl_leasing s.table.heldReleases s.looksLost)
    · exact hs

theorem epochEndClaim (hs : Leased s) : Answers Leased (execEpochEndClaim s) := by
  refine answers_next.mpr ?_
  split
  · exact hs
  · split
    · exact hs
    · exact hs.of_leasing (epochEndSlot_foldl_leasing _ _)

theorem releaseClaim (hs : Leased s) (p : Port) : Answers Leased (execReleaseClaim p s) := by
  refine answers_next.mpr ?_
  split
  · dsimp only
    split
    · exact hs.of_leasing (State.releaseEntries_leasing _ p)
    · exact hs
  · exact hs

theorem look (hs : Leased s) (src : LookSource) : Answers Leased (execLook src s) := by
  refine answers_next.mpr ?_
  split
  · exact hs
  · exact hs.of_leasing (lookAt_leasing _ _)

/-! ### Every command and every step -/

/-- From a state in which a held port domain has no lease, every command keeps the law of the lease. -/
theorem exec (c : Instr) (hs : Leased s) (hheld : s.standby.running = false → s.lease.holder = none) :
    Answers Leased (exec c s) := by
  cases c with
  | openReq p h a f => exact hs.request fun _ ht _ _ => ht.openAct
  | closeReq p h a f => exact hs.request fun _ ht _ _ => ht.closeWith
  | pingReq p h a f => exact hs.request_frame fun t => t.respond_leasing p _
  | statusReq p h a f => exact hs.request fun _ ht _ _ => ht.respond.quiet rfl
  | resyncReq p h a f =>
    exact hs.request_frame fun t => (State.respond_leasing _ p _).trans (t.resync_leasing p)
  | readTime p h a f => exact hs.request_frame fun t => t.respond_leasing p _
  | stageTime p h a f => exact hs.request_frame (stageAct_leasing p _)
  | commitTime p h a f => exact hs.request (throughGate fun _ => commitAct)
  | cancelCommit p h a f => exact hs.request (throughGate fun _ ht _ => ht.cancelAct)
  | readTrim p h a f => exact hs.request_frame fun t => t.respond_leasing p _
  | setTrim p h a f =>
    exact hs.request (throughGate fun t ht _ => ht.of_leasing (setTrimAct_leasing p _ t))
  | acquire p h a f => exact hs.request fun _ ht _ hopen => ht.acquireAct (hopen rfl)
  | renew p h a f => exact hs.request (leaseGate fun _ => renewAct)
  | release p h a f => exact hs.request (leaseGate fun _ ht _ => (ht.endLease _).respond)
  | create p h a f => exact hs.request_frame (createAct_leasing p _)
  | arm p h a f => exact hs.request_frame (asOwner_leasing (armEntry_leasing p _))
  | suspend p h a f => exact hs.request_frame (asOwner_leasing (suspendEntry_leasing p))
  | resume p h a f => exact hs.request_frame (asOwner_leasing (resumeEntry_leasing p))
  | delete p h a f =>
    exact hs.request_frame (asOwner_leasing fun n _ t => State.respond_leasing (t.freeSlot n.slot) p _)
  | query p h a f => exact hs.request_frame (whenCurrent_leasing (queryEntry_leasing p _))
  | list p h a f => exact hs.request_frame (listAct_leasing p _)
  | kick p h a f => exact hs.request fun _ ht _ _ => ht.kickAct
  | kickAtNamedPort q => exact hs.kickAtNamedPort q
  | setQuota p h a f => exact hs.request_frame (setQuotaAct_leasing p _)
  | breakLease p h a f => exact hs.request fun _ ht _ _ => ht.breakLeaseAct
  | purge p h a f => exact hs.request_frame (whenCurrent_leasing (purgeEntry_leasing p))
  | unknownRequest p h body =>
    refine answers_next.mpr ?_
    split
    · exact hs.serve fun _ ht _ _ => ht.respond
    · exact hs
  | overrun p h body =>
    refine answers_next.mpr ?_
    split
    · exact hs.serve fun _ ht _ _ => ht
    · exact hs
  | ack p h body => exact hs.ack p h body
  | unusedFrame p cls h body => exact hs.unusedFrame p cls h body
  | receiveError p chars =>
    refine answers_next.mpr ?_
    split
    · exact hs.quiet rfl
    · exact hs
  | gap p => exact hs.gap p
  | breakLine p => exact hs.breakLine p
  | responseFrameStart p rdy => exact (hs.frameStart p rdy).1
  | noticeFrameStart p rdy => exact (hs.frameStart p rdy).2.1
  | resendFrameStart p rdy => exact (hs.frameStart p rdy).2.2
  | endOfService p =>
    refine answers_next.mpr ?_
    split
    · exact hs.quiet rfl
    · exact hs
  | tuAdvance => exact answers_next.mpr (hs.of_leasing (countAdvance_leasing s)).takeAdvance
  | trimWindowStart => exact answers_next.mpr hs
  | oscillatorSecond sink =>
    refine answers_next.mpr ?_
    cases sink with
    | lease => exact leaseSecond (s := takeLeaseSecondMark s) hs
    | port p => exact portSecond (s := takePortSecondMark p s) hs p
  | leaseExpiry =>
    refine answers_next.mpr ?_
    split
    · exact leaseSecond (s := takeLeaseSecondMark s) hs
    · exact hs
  | keepaliveTimeout p =>
    refine answers_next.mpr ?_
    split
    · exact portSecond (s := takePortSecondMark p s) hs p
    · exact hs
  | tenMsTick => exact hs.tenMsTick
  | ackTimeout p => exact hs.ackTimeout p
  | look src => exact hs.look src
  | firingClaim => exact hs.firingClaim
  | wakeRequest =>
    refine answers_next.mpr ?_
    split <;> exact hs
  | noticeTaken src =>
    refine answers_next.mpr ?_
    split
    · exact hs
    · exact hs.of_leasing (placeFor_foldl_leasing _ _ _ _)
  | searchRunComplete => exact hs.searchRunComplete
  | resultClaim => exact hs.resultClaim
  | stepClaim => exact hs.stepClaim
  | rescanVisit => exact hs.rescanVisit
  | rescanEnd => exact hs.rescanEnd
  | epochEndClaim => exact hs.epochEndClaim
  | leaseEndClaim =>
    refine answers_next.mpr ?_
    split
    · exact hs
    · exact hs.takeLeaseEnd _ _
  | sessionEndClaim p =>
    refine answers_next.mpr ?_
    split
    · exact hs.takeSessionEnd p fun q hq => (List.mem_erase_of_ne hq).mpr
    · exact hs
  | releaseClaim p => exact hs.releaseClaim p
  | pf asserted straps point =>
    refine answers_next.mpr ?_
    cases point with
    | filtered =>
      exact inputs (s := s.atPins s.pins { s.standby with pfPin := s.standby.pfPin.taken asserted }) hs hheld
        _ _ _ _
    | pin => exact hs
  | rst asserted straps point =>
    refine answers_next.mpr ?_
    cases point with
    | filtered =>
      exact inputs (s := s.atPins s.pins { s.standby with rstPin := s.standby.rstPin.taken asserted }) hs hheld
        _ _ _ _
    | pin => exact hs
  | vddLoss => exact answers_next.mpr (hs.inputs hheld _ _ _ _)
  | vddGood straps => exact answers_next.mpr (hs.inputs hheld _ _ _ straps)
  | coldStart pf rst good => exact coldStart s pf rst good
  | noticeFrameEnd p =>
    refine answers_next.mpr ?_
    split
    · exact hs.quiet rfl
    · exact hs
  | frameHeader p data =>
    refine answers_next.mpr ?_
    split
    · exact hs.quiet rfl
    · exact hs
  | returnToMarking p =>
    refine answers_next.mpr ?_
    split
    · exact hs.quiet rfl
    · exact hs

end Leased

/-- A command that keeps each of two predicates keeps both. -/
theorem Answers.and {P Q : State → Prop} {o : Host.Outcome State Fault Refusal} (hP : Answers P o)
    (hQ : Answers Q o) : Answers (fun t => P t ∧ Q t) o := by
  obtain ⟨t, rfl, ht⟩ := hP
  exact answers_next.mpr ⟨ht, answers_next.mp hQ⟩

/-- The two laws look at nothing but the link and the leasing. -/
theorem holdLaw_leaseLaw_of_views {s t : State} (hs : HoldLaw s ∧ LeaseLaw s) (hlink : t.link = s.link)
    (hleasing : t.leasing = s.leasing) : HoldLaw t ∧ LeaseLaw t := by
  rw [← State.link_holdLawful_iff, ← State.leasing_lawful_iff] at hs ⊢
  rwa [hlink, hleasing]

/-- Settles O13: the law of the hold is kept by itself (`HoldLaw.exec`), and with it, since no port holds
the lease in a held port domain, so is the law of the lease over the leasing (`Leased.exec`). -/
theorem leaseLawKept : Obligations.LeaseLawKept := by
  refine keptByStep_of_exec (fun s l hs => holdLaw_leaseLaw_of_views hs rfl rfl) ?_
    fun s hs => holdLaw_leaseLaw_of_views hs rfl rfl
  rintro c s ⟨hhold, hlease⟩
  have hleased := Leased.exec c (State.leasing_lawful_iff.mpr hlease) hhold.lease
  exact (HoldLaw.exec c hhold).and (hleased.imp fun _ => State.leasing_lawful_iff.mp)

end Sys2Proof.Machine
end

section
/-! PROOFS. How a lease counts down and what its end hands on (O26). -/

namespace Sys2Proof.Machine

section Seconds

variable {s : State}

/-! ### The oscillator second at the Lease Unit (R107) -/

/-- An oscillator second has nothing to count in a held port domain or without a holder. -/
theorem leaseSecond_of_idle (h : s.standby.running = false ∨ s.lease.holder = none) :
    leaseSecond s = s := by
  unfold leaseSecond
  rcases h with h | h <;> simp [h]

theorem leaseSecond_of_held {p : Port} {n : Nat} (hr : s.standby.running = true)
    (h : s.lease = ⟨some p, n + 1⟩) : leaseSecond s = { s with lease := ⟨some p, n⟩ } := by
  simp [leaseSecond, hr, h]

theorem leaseSecond_of_zero {p : Port} (hr : s.standby.running = true) (h : s.lease = ⟨some p, 0⟩) :
    leaseSecond s = s.endLease (some .expired) := by
  simp [leaseSecond, hr, h]

theorem execLeaseExpiry_of_zero {p : Port} (h : s.lease = ⟨some p, 0⟩) :
    execLeaseExpiry s = .next (leaseSecond (takeLeaseSecondMark s)) :=
  congrArg Host.Outcome.next (if_pos (by simp [h]))

end Seconds

section Ends

variable {s : State} {p : Port}

/-! ### The end of the lease (R101) -/

theorem State.endLease_release (h : s.lease.holder = some p) :
    s.endLease none = ({ s with lease := ⟨none, 0⟩ }).handLeaseEnd p := by
  simp [State.endLease, h]

theorem State.endLease_cause (h : s.lease.holder = some p) (cause : LeaseCause) :
    s.endLease (some cause) = (({ s with lease := ⟨none, 0⟩ }).handNotice .lease (.lease cause)
      (.ports (PortSet.single p))).handLeaseEnd p := by
  simp [State.endLease, h]

/-! ### The session-end claims (R109) -/

theorem State.takeSessionEnd_of_holder (h : s.lease.holder = some p) :
    s.takeSessionEnd p = s.endLease (some .reset) := if_pos h

theorem State.takeSessionEnd_of_other (h : s.lease.holder ≠ some p) : s.takeSessionEnd p = s := if_neg h

theorem execSessionEndClaim_of_mem (h : p ∈ s.transit.sessionEnds) : execSessionEndClaim p s = .next
    (({ s with transit := { s.transit with
      sessionEnds := s.transit.sessionEnds.erase p } }).takeSessionEnd p) :=
  congrArg Host.Outcome.next (if_pos (List.contains_iff_mem.mpr h))

theorem State.settleSessionEnds_of_mem (h : p ∈ s.transit.sessionEnds) : s.settleSessionEnds p =
    ({ s with transit := { s.transit with
      sessionEnds := s.transit.sessionEnds.filter (· != p) } }).takeSessionEnd p :=
  if_pos (List.contains_iff_mem.mpr h)

theorem State.settleSessionEnds_of_not_mem (h : p ∉ s.transit.sessionEnds) : s.settleSessionEnds p = s :=
  if_neg (mt List.contains_iff_mem.mp h)

end Ends

section LeaseEnds

variable {s : State} {m : LeaseEndMsg} {rest : List LeaseEndMsg}

/-! ### The lease-end claims (R102, R103) -/

/-- The lease-end claims off their way, all but those given. -/
def State.leaseEndsLeft (s : State) (rest : List LeaseEndMsg) : State :=
  { s with transit := { s.transit with leaseEnds := rest } }

theorem execLeaseEndClaim_of_cons (h : s.transit.leaseEnds = m :: rest) :
    execLeaseEndClaim s = .next ((s.leaseEndsLeft rest).takeLeaseEnd m) := by
  unfold execLeaseEndClaim
  rw [h]
  rfl

theorem State.takeLeaseEnd_of_empty (h : s.time.slot = .empty) :
    s.takeLeaseEnd m = { s with transit := { s.transit with timebaseAfter := m.stamp } } := by
  simp [State.takeLeaseEnd, h]

theorem State.takeLeaseEnd_of_pending {second : Nat} {q : Port} (h : s.time.slot = .pending second q) :
    s.takeLeaseEnd m = ({ s with
      time := { s.time with slot := .empty }
      transit := { s.transit with timebaseAfter := m.stamp } }).handNotice .timebase .commitDropped
        (.ports (PortSet.single q)) := by
  simp [State.takeLeaseEnd, h]

theorem State.settleLeaseEnds_eq (s : State) :
    s.settleLeaseEnds = s.transit.leaseEnds.foldl State.takeLeaseEnd (s.leaseEndsLeft []) := rfl

theorem State.settleLeaseEnds_of_nil (h : s.transit.leaseEnds = []) : s.settleLeaseEnds = s := by
  rw [State.settleLeaseEnds_eq, h]
  show s.leaseEndsLeft [] = s
  rw [← h]
  rfl

/-- Taking all the lease-end claims is taking the oldest and then the others. -/
theorem State.settleLeaseEnds_of_cons (h : s.transit.leaseEnds = m :: rest) :
    s.settleLeaseEnds = ((s.leaseEndsLeft rest).takeLeaseEnd m).settleLeaseEnds := by
  have htake (l : List LeaseEndMsg) : (s.leaseEndsLeft l).takeLeaseEnd m =
      (s.takeLeaseEnd m).leaseEndsLeft l := s.takeLeaseEnd_leaseEnds l m
  have hleft : s.settleLeaseEnds = rest.foldl State.takeLeaseEnd ((s.leaseEndsLeft []).takeLeaseEnd m) := by
    rw [State.settleLeaseEnds_eq, h]
    rfl
  rw [hleft, htake, htake]
  rfl

theorem State.takeLeaseEnd_left : ((s.leaseEndsLeft rest).takeLeaseEnd m).transit.leaseEnds = rest := by
  rw [show (s.leaseEndsLeft rest).takeLeaseEnd m = _ from s.takeLeaseEnd_leaseEnds rest m]

end LeaseEnds

/-- Settles O26: each part is what its event does by the case the state is in: `leaseSecond`, `endLease`,
`takeSessionEnd`, `takeLeaseEnd`, and the two that take every claim on its way. -/
theorem leaseEndsHandOn : Obligations.LeaseEndsHandOn := by
  refine ⟨fun s => ?_, fun s p hp => ⟨s.endLease_release hp, s.endLease_cause hp⟩, fun s p hmem => ?_,
    fun s m rest h => ?_, fun s p => ?_, fun s => ⟨State.settleLeaseEnds_of_nil, fun hne => ?_⟩,
    fun _ _ _ _ => ⟨rfl, rfl⟩, fun _ _ => rfl⟩
  · refine ⟨fun h => congrArg Host.Outcome.next (leaseSecond_of_idle (s := takeLeaseSecondMark s) h),
      fun p n hr h => congrArg Host.Outcome.next (leaseSecond_of_held (s := takeLeaseSecondMark s) hr h),
      fun p hr h => ?_⟩
    have hended := leaseSecond_of_zero (s := takeLeaseSecondMark s) hr h
    exact ⟨congrArg Host.Outcome.next hended,
      (execLeaseExpiry_of_zero h).trans (congrArg Host.Outcome.next hended)⟩
  · have hexec := execSessionEndClaim_of_mem hmem
    exact ⟨fun hp => hexec.trans (congrArg Host.Outcome.next (State.takeSessionEnd_of_holder hp)),
      fun hp => hexec.trans (congrArg Host.Outcome.next (State.takeSessionEnd_of_other hp))⟩
  · have hexec := execLeaseEndClaim_of_cons h
    exact ⟨fun hslot => hexec.trans (congrArg Host.Outcome.next (State.takeLeaseEnd_of_empty hslot)),
      fun second q hslot => hexec.trans
        (congrArg Host.Outcome.next (State.takeLeaseEnd_of_pending hslot))⟩
  · exact ⟨State.settleSessionEnds_of_not_mem,
      fun hmem hp => (State.settleSessionEnds_of_mem hmem).trans (State.takeSessionEnd_of_holder hp),
      fun hmem hp => (State.settleSessionEnds_of_mem hmem).trans (State.takeSessionEnd_of_other hp)⟩
  · obtain ⟨m, rest, h⟩ := List.exists_cons_of_ne_nil hne
    exact ⟨_, execLeaseEndClaim_of_cons h, by rw [State.takeLeaseEnd_left, h, List.length_cons],
      State.settleLeaseEnds_of_cons h⟩

end Sys2Proof.Machine
end

section
/-! PROOFS. The requests at the Lease Unit (O24, O25), and those of the holder at the Timebase (O21, O23). -/

namespace Sys2Proof.Machine

/-! ### The requests reach the Lease Unit and the Timebase (R103) -/

section Served

variable {s : State} {p : Port} {h : Header} {a b : Byte}

theorem exec_acquire (ht : s.takesOpen p h [0x30, a]) : exec (.acquire p h [a]) s =
    .next (acquireAct p [0x30, a] (s.serving p h [0x30, a])) :=
  congrArg Host.Outcome.next (serve_of_takes ht.1 rfl fun _ => ht.2)

theorem exec_renew (ht : s.takesOpen p h [0x31, a]) : exec (.renew p h [a]) s =
    .next (leaseGate p (renewAct p [0x31, a]) (s.serving p h [0x31, a])) :=
  congrArg Host.Outcome.next (serve_of_takes ht.1 rfl fun _ => ht.2)

theorem exec_release (ht : s.takesOpen p h [0x32]) : exec (.release p h []) s =
    .next (leaseGate p (fun s => (s.endLease none).respond p [0x00]) (s.serving p h [0x32])) :=
  congrArg Host.Outcome.next (serve_of_takes ht.1 rfl fun _ => ht.2)

theorem exec_breakLease (ht : s.takesOpen p h [0x52]) : exec (.breakLease p h []) s =
    .next (breakLeaseAct p (s.serving p h [0x52])) :=
  congrArg Host.Outcome.next (serve_of_takes ht.1 rfl fun _ => ht.2)

theorem exec_commitTime (ht : s.takesOpen p h [0x22, a]) : exec (.commitTime p h [a]) s =
    .next (throughGate p (commitAct p [0x22, a]) (s.serving p h [0x22, a])) :=
  congrArg Host.Outcome.next (serve_of_takes ht.1 rfl fun _ => ht.2)

theorem exec_cancelCommit (ht : s.takesOpen p h [0x23]) : exec (.cancelCommit p h []) s =
    .next (throughGate p (cancelAct p) (s.serving p h [0x23])) :=
  congrArg Host.Outcome.next (serve_of_takes ht.1 rfl fun _ => ht.2)

theorem exec_setTrim (ht : s.takesOpen p h [0x25, a, b]) : exec (.setTrim p h [a, b]) s =
    .next (throughGate p (setTrimAct p [0x25, a, b]) (s.serving p h [0x25, a, b])) :=
  congrArg Host.Outcome.next (serve_of_takes ht.1 rfl fun _ => ht.2)

end Served

/-! ### ACQUIRE (R104) -/

section Acquire

variable {s : State} {p : Port} {body : List Byte}

theorem acquireAct_of_zero (hd : (byteAt body 1).toNat = 0) :
    acquireAct p body s = (s.settleSessionEnds p).respond p [0x08] := if_pos hd

theorem acquireAct_grants (hd : (byteAt body 1).toNat ≠ 0)
    (hp : (s.settleSessionEnds p).lease.holder = none) : acquireAct p body s =
      ({ s.settleSessionEnds p with lease := ⟨some p, (byteAt body 1).toNat⟩ }).respond p [0x00, 0x01] := by
  unfold acquireAct
  dsimp only
  rw [if_neg hd, hp]
  rfl

theorem acquireAct_renews (hd : (byteAt body 1).toNat ≠ 0)
    (hp : (s.settleSessionEnds p).lease.holder = some p) : acquireAct p body s =
      ({ s.settleSessionEnds p with lease := ⟨some p, (byteAt body 1).toNat⟩ }).respond p [0x00, 0x02] := by
  unfold acquireAct
  dsimp only
  rw [if_neg hd, hp]
  exact if_pos rfl

theorem acquireAct_of_other {q : Port} (hd : (byteAt body 1).toNat ≠ 0)
    (hq : (s.settleSessionEnds p).lease.holder = some q) (hne : q ≠ p) :
    acquireAct p body s = (s.settleSessionEnds p).respond p [0x05, portByte q] := by
  unfold acquireAct
  dsimp only
  rw [if_neg hd, hq]
  exact if_neg hne

end Acquire

theorem Byte.toNat_ne_zero {d : Byte} (hd : d ≠ 0) : d.toNat ≠ 0 := fun h => hd (BitVec.eq_of_toNat_eq h)

/-- Settles O24: the four rows of R104 are `acquireAct_of_zero`, `acquireAct_grants`, `acquireAct_renews` and
`acquireAct_of_other`. -/
theorem acquireDecided : Obligations.AcquireDecided := by
  intro s p h d ht u answers
  have hexec {t : State} (e : acquireAct p [0x30, d] (s.serving p h [0x30, d]) = t) : answers t :=
    (exec_acquire ht).trans (congrArg Host.Outcome.next e)
  refine ⟨fun hd => hexec (acquireAct_of_zero ?_), fun hd hp => hexec (acquireAct_grants ?_ hp),
    fun hd hp => hexec (acquireAct_renews ?_ hp), fun q hd hq hne => hexec (acquireAct_of_other ?_ hq hne)⟩
  · rw [hd]
    rfl
  all_goals exact Byte.toNat_ne_zero hd

/-! ### RENEW, RELEASE and BREAK_LEASE (R105, R106, R108) -/

@[simp] theorem State.settleSessionEnds_supervisor (s : State) (p : Port) :
    (s.settleSessionEnds p).supervisor = s.supervisor := by rw [s.settleSessionEnds_frame]

section Held

variable {s : State} {p : Port} {body : List Byte}

theorem renewAct_of_zero (hd : (byteAt body 1).toNat = 0) : renewAct p body s = s.respond p [0x08] :=
  if_pos hd

theorem renewAct_of_holder (hd : (byteAt body 1).toNat ≠ 0) (hp : s.lease.holder = some p) :
    renewAct p body s =
      ({ s with lease := ⟨some p, (byteAt body 1).toNat⟩ }).respond p [0x00] := by
  unfold renewAct
  dsimp only
  rw [if_neg hd, hp]
  rfl

theorem breakLeaseAct_of_other (hp : p ≠ s.supervisor) :
    breakLeaseAct p s = (s.settleSessionEnds p).respond p [0x03] :=
  if_pos (by rwa [State.settleSessionEnds_supervisor])

theorem breakLeaseAct_of_none (hp : p = s.supervisor)
    (hnone : (s.settleSessionEnds p).lease.holder = none) :
    breakLeaseAct p s = (s.settleSessionEnds p).respond p [0x07] := by
  unfold breakLeaseAct
  dsimp only
  rw [State.settleSessionEnds_supervisor, if_neg (not_not_intro hp), hnone]
  rfl

theorem breakLeaseAct_of_held {q : Port} (hp : p = s.supervisor)
    (hq : (s.settleSessionEnds p).lease.holder = some q) : breakLeaseAct p s =
      ((s.settleSessionEnds p).endLease (some .broken)).respond p [0x00, portByte q] := by
  unfold breakLeaseAct
  dsimp only
  rw [State.settleSessionEnds_supervisor, if_neg (not_not_intro hp), hq]
  rfl

end Held

/-- Settles O25: RENEW and RELEASE meet the gate (`leaseGate_of_holder`, `leaseGate_of_not_holder`) and then
their acts, and BREAK_LEASE the rows of R108. -/
theorem renewReleaseAndBreak : Obligations.RenewReleaseAndBreak := by
  refine ⟨fun s p h d ht => ?_, fun s p h ht => ?_, fun s p h ht => ?_⟩
  · intro u answers
    refine ⟨fun hp => ?_, fun hp hd => ?_, fun hp hd => ?_⟩ <;> refine (exec_renew ht).trans ?_
    · rw [leaseGate_of_not_holder hp]
    · rw [leaseGate_of_holder hp, renewAct_of_zero (body := [0x31, d]) (by rw [hd]; rfl)]
    · rw [leaseGate_of_holder hp, renewAct_of_holder (body := [0x31, d]) (Byte.toNat_ne_zero hd) hp]
      rfl
  · refine ⟨fun hp => ?_, fun hp => ?_⟩ <;> rw [exec_release ht]
    · rw [leaseGate_of_not_holder hp]
    · rw [leaseGate_of_holder hp]
  · intro u answers
    have hexec {t : State} (e : breakLeaseAct p (s.serving p h [0x52]) = t) : answers t :=
      (exec_breakLease ht).trans (congrArg Host.Outcome.next e)
    exact ⟨fun hp => hexec (breakLeaseAct_of_other hp),
      fun hp hnone => hexec (breakLeaseAct_of_none hp hnone),
      fun q hp hq => hexec (breakLeaseAct_of_held hp hq)⟩

/-! ### The checks of COMMIT_TIME (R113) -/

section Commit

variable {s : State} {p : Port} {code m : Byte} {mode : CommitMode}

theorem CommitMode.ofByte_eq_none (hm : 2 < m.toNat) : CommitMode.ofByte m = none := by
  unfold CommitMode.ofByte
  generalize m.toNat = n at hm
  match n, hm with
  | _ + 3, _ => rfl

theorem CommitMode.ofByte_defined (hm : m.toNat ≤ 2) : ∃ mode, CommitMode.ofByte m = some mode := by
  unfold CommitMode.ofByte
  generalize m.toNat = n at hm
  match n, hm with
  | 0, _ => exact ⟨.step, rfl⟩
  | 1, _ => exact ⟨.onSecond, rfl⟩
  | 2, _ => exact ⟨.slew, rfl⟩

theorem commitCheck_of_no_mode (hm : CommitMode.ofByte m = none) :
    commitCheck p [code, m] s = .error .badValue := by
  unfold commitCheck
  rw [show byteAt [code, m] 1 = m from rfl, hm]

section Mode

variable (hm : CommitMode.ofByte m = some mode)

include hm

theorem commitCheck_of_busy (hbusy : s.table.mode ≠ .normal ∨ s.stepOnWay = true) :
    commitCheck p [code, m] s = .error .busy := by
  unfold commitCheck
  rw [show byteAt [code, m] 1 = m from rfl, hm]
  exact if_pos (by simpa [State.tableNormal] using hbusy)

variable (hfree : ¬(s.table.mode ≠ .normal ∨ s.stepOnWay = true))

include hfree

theorem commitCheck_of_incomplete (hc : (s.port p).staging.calendar = none) :
    commitCheck p [code, m] s = .error .incomplete := by
  unfold commitCheck
  rw [show byteAt [code, m] 1 = m from rfl, hm]
  refine (if_neg (by simpa [State.tableNormal] using hfree)).trans ?_
  rw [hc]

/-- Past the first three checks, those on the staged date. -/
theorem commitCheck_of_complete {c : Calendar} (hc : (s.port p).staging.calendar = some c) :
    commitCheck p [code, m] s =
      if !c.isReal then .error .badValue
      else if mode = .slew ∧ !s.time.valid then .error .notValid
      else if mode = .slew ∧ Config.slewLimit < ((c.toCount : Int) - s.time.instant).natAbs then
        .error .badValue
      else .ok (mode, c.toCount) := by
  unfold commitCheck
  rw [show byteAt [code, m] 1 = m from rfl, hm]
  refine (if_neg (by simpa [State.tableNormal] using hfree)).trans ?_
  rw [hc]

end Mode

theorem commitAct_of_error {body : List Byte} {st : Status} (h : commitCheck p body s = .error st) :
    commitAct p body s = s.respond p [st.code] := by
  unfold commitAct
  rw [h]
  rfl

end Commit

/-- A holder's COMMIT_TIME is refused with the status of the first check that fails. -/
theorem exec_commitTime_refused {s : State} {p : Port} {h : Header} {m : Byte} {st : Status}
    (ht : s.takesOpen p h [0x22, m]) (hp : (s.atLeaseUnit p h [0x22, m]).lease.holder = some p)
    (herror : commitCheck p [0x22, m] (s.atTimebase p h [0x22, m]) = .error st) :
    exec (.commitTime p h [m]) s = .next ((s.atTimebase p h [0x22, m]).respond p [st.code]) := by
  rw [exec_commitTime ht, throughGate_of_holder hp, commitAct_of_error herror]

/-- Settles O21: each refusal is the one of `commitCheck` that its conditions lead to. -/
theorem commitRefusedInOrder : Obligations.CommitRefusedInOrder := by
  intro s p h m ht g
  refine ⟨fun hp => ?_, fun hp => ?_⟩
  · rw [exec_commitTime ht, throughGate_of_not_holder hp]
  intro u refused busy
  refine ⟨fun hm => ?_, fun hm hbusy => ?_, fun hm hfree hc => ?_, fun c hm hfree hc => ?_⟩
  · exact exec_commitTime_refused ht hp (commitCheck_of_no_mode (CommitMode.ofByte_eq_none hm))
  all_goals obtain ⟨mode, hmode⟩ := CommitMode.ofByte_defined hm
  · exact exec_commitTime_refused ht hp (commitCheck_of_busy hmode hbusy)
  · exact exec_commitTime_refused ht hp (commitCheck_of_incomplete hmode hfree hc)
  · have hcheck := commitCheck_of_complete (code := 0x22) hmode hfree hc
    have hslew (h2 : m = 2) : mode = .slew := by
      rw [h2] at hmode
      exact (Option.some.inj hmode).symm
    refine ⟨fun hreal => ?_, fun h2 hreal hvalid => ?_, fun h2 hreal hvalid hlimit => ?_⟩
    · exact exec_commitTime_refused ht hp (st := .badValue) (by rw [hcheck, hreal]; rfl)
    · refine exec_commitTime_refused ht hp (st := .notValid) ?_
      rw [hcheck, hreal, if_neg (by decide), if_pos ⟨hslew h2, by rw [hvalid]; rfl⟩]
    · refine exec_commitTime_refused ht hp (st := .badValue) ?_
      rw [hcheck, hreal, if_neg (by decide), if_neg (by rw [hvalid]; exact fun h => nomatch h.2),
        if_pos ⟨hslew h2, hlimit⟩]

/-! ### CANCEL_COMMIT and SET_TRIM (R122, R123) -/

/-- CANCEL_COMMIT reports NONE, COMMIT, SLEW or BOTH (R122). -/
theorem cancelOutcome_eq (t : Timebase) : cancelOutcome t = match t.slot, t.slew with
    | .empty, .idle => 0x00
    | .pending _ _, .idle => 0x01
    | .empty, .active _ _ => 0x02
    | .pending _ _, .active _ _ => 0x03 := by
  obtain ⟨instant, valid, slew, slot⟩ := t
  cases slot <;> cases slew <;> rfl

/-- A two-character signed number is the 16-bit word of its characters in two's complement (R181). -/
theorem signedAt_pair (code hi lo : Byte) : signedAt [code, hi, lo] 1 = (hi ++ lo : BitVec 16).toInt := by
  have hword : (hi ++ lo : BitVec 16).toNat = hi.toNat * 256 + lo.toNat := by
    rw [BitVec.toNat_append, ← Nat.shiftLeft_add_eq_or_of_lt lo.isLt, Nat.shiftLeft_eq]
  have hnumber : numberAt [code, hi, lo] 1 2 = hi.toNat * 256 + lo.toNat := by
    simp [numberAt, bytesToNat]
  have hhi := hi.isLt
  have hlo := lo.isLt
  unfold signedAt
  rw [BitVec.toInt_eq_toNat_cond, hword, hnumber]
  dsimp only
  split <;> split <;> omega

section Trim

variable {s : State} {p : Port} {body : List Byte}

theorem setTrimAct_of_range (h : -128 ≤ signedAt body 1 ∧ signedAt body 1 ≤ 127) : setTrimAct p body s =
    ({ s with osc := { s.osc with pendingTrim := signedAt body 1 } }).respond p [0x00] := if_pos h

theorem setTrimAct_of_outside (h : signedAt body 1 < -128 ∨ 127 < signedAt body 1) :
    setTrimAct p body s = s.respond p [0x08] := if_neg (by omega)

end Trim

/-- Settles O23: past the gate the two acts are read off the Timebase they find; the value of SET_TRIM is
`signedAt_pair`. -/
theorem cancelAndTrim : Obligations.CancelAndTrim := by
  refine ⟨fun s p h ht => ?_, fun s p h hi lo ht => ?_⟩
  · intro g u outcome
    have houtcome : cancelOutcome u.time = outcome := cancelOutcome_eq u.time
    refine ⟨fun hp => ?_, fun hp => ?_⟩ <;> rw [exec_cancelCommit ht]
    · rw [throughGate_of_not_holder hp]
    · rw [throughGate_of_holder hp, ← houtcome]
      rfl
  · intro g u t answers
    have hvalue : signedAt [0x25, hi, lo] 1 = t := signedAt_pair 0x25 hi lo
    refine ⟨fun hp => ?_, fun hp hrange => ?_, fun hp hrange => ?_⟩ <;>
      refine (exec_setTrim ht).trans ?_
    · rw [throughGate_of_not_holder hp]
    · rw [throughGate_of_holder hp, setTrimAct_of_range (by rwa [hvalue]), hvalue]
    · rw [throughGate_of_holder hp, setTrimAct_of_outside (by rwa [hvalue])]

end Sys2Proof.Machine
end

section
/-! PROOFS. The gate of the steps, which the law of the step claims speaks of, and the commands that
leave it alone (O10). -/

namespace Sys2Proof.Machine

/-! ### The gate of a state -/

/-- The items that decide when a step of the time may be taken: the commit slot, the Timebase claims on
their way, the mode of the Schedule Table and its held release claims. -/
structure Gate where
  slot : CommitSlot
  claims : List TimeMsg
  mode : TableMode
  held : List Port

/-- The gate of a state. -/
def State.gate (s : State) : Gate :=
  { slot := s.time.slot, claims := s.transit.timeClaims, mode := s.table.mode
    held := s.table.heldReleases }

/-! ### Operations that leave the gate alone -/

@[simp] theorem State.place_gate (s : State) (i : SlotNo) (e : Entry) (ref : Reference) :
    (s.place i e ref).gate = s.gate := by rw [s.place_frame]; rfl

@[simp] theorem State.releaseEntries_gate (s : State) (p : Port) : (s.releaseEntries p).gate = s.gate :=
  State.releaseEntries_keeps (P := fun t => t.gate = s.gate) (fun _ _ h => h) rfl

theorem releaseEntries_foldl_gate (l : List Port) (s : State) :
    (l.foldl State.releaseEntries s).gate = s.gate := by
  induction l generalizing s with
  | nil => rfl
  | cons p rest ih => rw [List.foldl_cons, ih, State.releaseEntries_gate]

theorem epochEndSlot_foldl_gate (l : List SlotNo) (s : State) :
    (l.foldl epochEndSlot s).gate = s.gate :=
  epochEnd_keeps (P := fun t => t.gate = s.gate) (fun t i _ _ _ ht => (t.place_gate i _ _).trans ht) rfl l

theorem placeFor_foldl_gate (content : Content) (set : PortSet) (l : List Port) (s : State) :
    (l.foldl (placeFor content set) s).gate = s.gate := by
  induction l generalizing s with
  | nil => rfl
  | cons p rest ih =>
    refine (ih _).trans ?_
    unfold placeFor
    split <;> rfl

@[simp] theorem State.endLease_gate (s : State) (cause : Option LeaseCause) :
    (s.endLease cause).gate = s.gate := by
  rcases s.endLease_cases cause with ⟨-, h⟩ | ⟨p, -, -, h⟩ | ⟨p, c, -, -, h⟩ <;> rw [h] <;> rfl

@[simp] theorem State.takeSessionEnd_gate (s : State) (p : Port) : (s.takeSessionEnd p).gate = s.gate := by
  unfold State.takeSessionEnd
  split
  · exact s.endLease_gate _
  · rfl

@[simp] theorem State.settleSessionEnds_gate (s : State) (p : Port) :
    (s.settleSessionEnds p).gate = s.gate := by
  unfold State.settleSessionEnds
  split
  · exact State.takeSessionEnd_gate _ p
  · rfl

@[simp] theorem State.sampleRdy_gate (s : State) (p : Port) (rdy : Bool) :
    (s.sampleRdy p rdy).gate = s.gate := by
  unfold State.sampleRdy; split <;> rfl

/-- A change of an input leaves the gate alone, whether it holds or starts the port domain. -/
@[simp] theorem State.inputs_gate (s : State) (pf rst good : Bool) (straps : Straps) :
    (s.inputs pf rst good straps).gate = s.gate := by
  rcases s.inputs_cases pf rst good straps with ⟨-, -, h⟩ | ⟨-, -, h⟩ | ⟨-, -, h⟩ | ⟨-, -, h⟩ <;> rw [h]
  · exact State.endLease_gate _ _
  all_goals rfl

@[simp] theorem countAdvance_gate (s : State) : (countAdvance s).gate = s.gate := by
  unfold countAdvance; dsimp only; split <;> rfl

@[simp] theorem moveInstant_gate (a : Advance) (s : State) : (moveInstant a s).gate = s.gate := by
  unfold moveInstant
  dsimp only
  cases a.done <;> (split <;> rfl)

/-! ### Acts of requests that leave the gate alone -/

section Acts

variable (p : Port) (body : List Byte) (n : Handle) (e : Entry) (s : State)

theorem openAct_gate : (openAct p body s).gate = s.gate := by
  cases hx : openSession body (s.port p).session.lastEnd with
  | none => rw [openAct_of_none hx]; rfl
  | some x => rw [openAct_of_some hx]; rfl

theorem kickAct_gate (h : Header) : (kickAct p h body s).gate = s.gate := by
  unfold kickAct
  split
  · rfl
  · split
    · rfl
    · split <;> rfl

theorem acquireAct_gate : (acquireAct p body s).gate = s.gate := by
  refine Eq.trans ?_ (s.settleSessionEnds_gate p)
  unfold acquireAct
  dsimp only
  split
  · rfl
  · split
    · rfl
    · split <;> rfl

theorem breakLeaseAct_gate : (breakLeaseAct p s).gate = s.gate := by
  refine Eq.trans ?_ (s.settleSessionEnds_gate p)
  unfold breakLeaseAct
  dsimp only
  split
  · rfl
  · split
    · rfl
    · exact State.endLease_gate _ _

theorem renewAct_gate : (renewAct p body s).gate = s.gate := by
  unfold renewAct; dsimp only; split <;> rfl

theorem setTrimAct_gate : (setTrimAct p body s).gate = s.gate := by
  unfold setTrimAct; dsimp only; split <;> rfl

theorem leaseGate_gate {act : State → State} (hact : ∀ t, (act t).gate = t.gate) :
    (leaseGate p act s).gate = s.gate :=
  leaseGate_keeps (P := fun t => t.gate = s.gate) (fun _ _ h => h)
    (fun h => (s.settleSessionEnds_gate p).trans h) (fun t h => (hact t).trans h) rfl

theorem whenNormal_gate {act : State → State} (hact : (act s).gate = s.gate) :
    (whenNormal p act s).gate = s.gate :=
  whenNormal_keeps (P := fun t => t.gate = s.gate) (fun _ _ h => h) (fun _ => hact) rfl

theorem whenCurrent_gate {act : Handle → Entry → State → State}
    (hact : ∀ n e t, (act n e t).gate = t.gate) :
    (whenNormal p (withCurrent p body act) s).gate = s.gate :=
  whenNormal_gate p s (withCurrent_keeps (P := fun t => t.gate = s.gate) (fun _ _ h => h)
    (fun n e _ => hact n e s) rfl)

theorem asOwner_gate {act : Handle → Entry → State → State}
    (hact : ∀ n e t, (act n e t).gate = t.gate) : (asOwner p body act s).gate = s.gate :=
  asOwner_keeps (P := fun t => t.gate = s.gate) (fun _ _ h => h) (fun n e _ => hact n e s) rfl

theorem createAct_gate : (createAct p body s).gate = s.gate := by
  refine whenNormal_gate p s ?_
  split
  · rfl
  · split
    · rfl
    · split
      · rfl
      · exact s.place_gate _ _ _

theorem armEntry_gate : (armEntry p body n e s).gate = s.gate := by
  unfold armEntry
  split
  · rfl
  · split
    · rfl
    · split
      · rfl
      · dsimp only
        split
        · exact s.place_gate _ _ _
        · rfl

theorem suspendEntry_gate : (suspendEntry p n e s).gate = s.gate := by
  unfold suspendEntry
  split
  · rfl
  · exact s.place_gate _ _ _

theorem resumeEntry_gate : (resumeEntry p n e s).gate = s.gate := by
  unfold resumeEntry
  split
  · rfl
  · split
    · rfl
    · exact s.place_gate _ _ _

theorem queryEntry_gate : (queryEntry p body n e s).gate = s.gate := by
  unfold queryEntry; split <;> rfl

theorem listAct_gate : (listAct p body s).gate = s.gate := by
  refine whenNormal_gate p s ?_
  dsimp only
  split
  · rfl
  · split <;> rfl

theorem setQuotaAct_gate : (setQuotaAct p body s).gate = s.gate := by
  refine whenNormal_gate p s ?_
  dsimp only
  split
  · rfl
  · split
    · rfl
    · split
      · rfl
      · split
        · rfl
        · split <;> rfl

theorem purgeEntry_gate : (purgeEntry p n e s).gate = s.gate := by
  unfold purgeEntry; split <;> rfl

/-! ### Events that leave the gate alone -/

theorem kickVerdict_gate (k : KickMsg) : (kickVerdict k body s).gate = s.gate := by
  unfold kickVerdict; split <;> rfl

theorem portSecond_gate : (portSecond p s).gate = s.gate := by
  unfold portSecond
  dsimp only
  split
  · split <;> rfl
  · rfl

theorem leaseSecond_gate : (leaseSecond s).gate = s.gate := by
  unfold leaseSecond
  split
  · split
    · rfl
    · split
      · exact s.endLease_gate _
      · rfl
  · rfl

theorem takeAck_gate (seq : Fin 16) : (takeAck p seq s).gate = s.gate := by
  unfold takeAck
  split
  · split <;> rfl
  · rfl

theorem lookAt_gate (m : LookMsg) : (lookAt m s).gate = s.gate := by
  unfold lookAt; dsimp only; split <;> rfl

theorem applyFiring_gate (c : FiringClaim) : (applyFiring c e s).gate = s.gate := by
  have hplace := s.place_gate c.handle.slot (e.fired c) c.next.reference
  unfold applyFiring State.handWake
  dsimp only
  split <;> split <;> exact hplace

theorem applyResult_gate (c : ResultClaim) : (applyResult c e s).gate = s.gate := by
  unfold applyResult
  split <;> exact s.place_gate _ _ _

theorem visitEntry_gate (r : Rescan) (i : SlotNo) : (visitEntry r i e s).gate = s.gate := by
  rcases visitEntry_cases r i e s with ⟨st, ref, h⟩ | h | h <;> rw [h]
  · exact s.place_gate _ _ _
  · rfl

/-- A frame start samples RDYn and writes one port's controller and queue. -/
theorem frameStart_gate (rdy : Bool) :
    Answers (fun t => t.gate = s.gate) (execResponseFrameStart p rdy s) ∧
    Answers (fun t => t.gate = s.gate) (execNoticeFrameStart p rdy s) ∧
    Answers (fun t => t.gate = s.gate) (execResendFrameStart p rdy s) := by
  refine ⟨answers_next.mpr ?_, answers_next.mpr ?_, answers_next.mpr ?_⟩ <;>
    (split <;> exact s.sampleRdy_gate p _)

theorem request_gate {f : Phase} {h : Header} {lengthOk gated : Bool} {act : State → State}
    (hact : ∀ t, (act t).gate = t.gate) :
    Answers (fun t => t.gate = s.gate) (.next (request f p h body lengthOk gated act s)) :=
  answers_request (fun _ _ ht => ht) (fun t ht => (hact t).trans ht) rfl

end Acts

/-! ### The commands that leave the gate alone -/

/-- The commands that have a part in the gate: those that set or cancel a commit, the advance, the claims
of the Timebase and of the lease, the rescan, a release claim and the cold start. -/
def movesGate : Instr → Bool
  | .commitTime .. | .cancelCommit .. | .setTrim .. | .tuAdvance | .stepClaim | .rescanVisit
  | .rescanEnd | .epochEndClaim | .leaseEndClaim | .releaseClaim _ | .coldStart .. => true
  | _ => false

/-- A command that has no part in the gate leaves it alone. -/
theorem exec_gate (c : Instr) (hc : movesGate c = false) (s : State) :
    Answers (fun t => t.gate = s.gate) (exec c s) := by
  cases c with
  | openReq p h a f => exact request_gate p _ s (openAct_gate p _)
  | closeReq p h a f | pingReq p h a f | statusReq p h a f | resyncReq p h a f | readTime p h a f
  | stageTime p h a f | readTrim p h a f => exact request_gate p _ s fun _ => rfl
  | acquire p h a f => exact request_gate p _ s (acquireAct_gate p _)
  | renew p h a f => exact request_gate p _ s fun t => leaseGate_gate p t (renewAct_gate p _)
  | release p h a f => exact request_gate p _ s fun t => leaseGate_gate p t fun u => u.endLease_gate _
  | create p h a f => exact request_gate p _ s (createAct_gate p _)
  | arm p h a f => exact request_gate p _ s fun t => asOwner_gate p _ t (armEntry_gate p _)
  | suspend p h a f => exact request_gate p _ s fun t => asOwner_gate p _ t (suspendEntry_gate p)
  | resume p h a f => exact request_gate p _ s fun t => asOwner_gate p _ t (resumeEntry_gate p)
  | delete p h a f => exact request_gate p _ s fun t => asOwner_gate p _ t fun _ _ _ => rfl
  | query p h a f => exact request_gate p _ s fun t => whenCurrent_gate p _ t (queryEntry_gate p _)
  | list p h a f => exact request_gate p _ s (listAct_gate p _)
  | kick p h a f => exact request_gate p _ s fun t => kickAct_gate p _ t h
  | setQuota p h a f => exact request_gate p _ s (setQuotaAct_gate p _)
  | breakLease p h a f => exact request_gate p _ s (breakLeaseAct_gate p)
  | purge p h a f => exact request_gate p _ s fun t => whenCurrent_gate p _ t (purgeEntry_gate p)
  | kickAtNamedPort q =>
    refine answers_next.mpr ?_
    split
    · rfl
    · dsimp only
      split <;> exact kickVerdict_gate _ _ _
  | unknownRequest p h body | overrun p h body =>
    refine answers_next.mpr ?_
    split
    · exact serve_keeps (P := fun t => t.gate = s.gate) (fun _ _ ht => ht) (fun _ ht => ht) rfl
    · rfl
  | ack p h body =>
    refine answers_next.mpr ?_
    split
    · rfl
    · split
      · rfl
      · exact takeAck_gate _ _ _
  | unusedFrame p cls h body =>
    refine answers_next.mpr ?_
    split
    · rfl
    · split <;> rfl
  | receiveError p chars | frameHeader p data | returnToMarking p | endOfService p | noticeFrameEnd p
  | tenMsTick | wakeRequest => refine answers_next.mpr ?_; split <;> rfl
  | gap p | ackTimeout p | searchRunComplete =>
    refine answers_next.mpr ?_
    split
    · split <;> rfl
    · rfl
  | breakLine p =>
    refine answers_next.mpr ?_
    split
    · dsimp only
      split <;> rfl
    · rfl
  | responseFrameStart p rdy => exact (frameStart_gate p s rdy).1
  | noticeFrameStart p rdy => exact (frameStart_gate p s rdy).2.1
  | resendFrameStart p rdy => exact (frameStart_gate p s rdy).2.2
  | trimWindowStart => exact answers_next.mpr rfl
  | oscillatorSecond sink =>
    refine answers_next.mpr ?_
    cases sink with
    | lease => exact leaseSecond_gate _
    | port p => exact portSecond_gate p _
  | leaseExpiry =>
    refine answers_next.mpr ?_
    split
    · exact leaseSecond_gate _
    · rfl
  | keepaliveTimeout p =>
    refine answers_next.mpr ?_
    split
    · exact portSecond_gate p _
    · rfl
  | noticeTaken src =>
    refine answers_next.mpr ?_
    split
    · rfl
    · exact placeFor_foldl_gate _ _ _ _
  | look src =>
    refine answers_next.mpr ?_
    split
    · rfl
    · exact lookAt_gate _ _
  | firingClaim =>
    refine answers_next.mpr ?_
    split
    · rfl
    · dsimp only
      split
      · rfl
      · split
        · exact applyFiring_gate _ _ _
        · rfl
  | resultClaim =>
    refine answers_next.mpr ?_
    split
    · rfl
    · dsimp only
      split
      · rfl
      · split
        · exact applyResult_gate _ _ _
        · rfl
  | sessionEndClaim p =>
    refine answers_next.mpr ?_
    split
    · exact State.takeSessionEnd_gate _ p
    · rfl
  | pf asserted straps point | rst asserted straps point =>
    refine answers_next.mpr ?_
    cases point with
    | filtered => exact State.inputs_gate _ _ _ _ _
    | pin => rfl
  | vddLoss | vddGood straps => exact answers_next.mpr (s.inputs_gate _ _ _ _)
  | _ => exact absurd hc (by simp [movesGate])

end Sys2Proof.Machine
end

section
/-! PROOFS. Every step keeps a step claim to a mode NORMAL (O10): the moves of the gate that keep the law
of the step claims, and the commands that make them. -/

namespace Sys2Proof.Machine

/-! ### The law over the gate -/

/-- The number of step claims on their way to the Schedule Table. -/
def Gate.stepClaims (g : Gate) : Nat := g.claims.countP (·.isStep)

/-- The law of the step claims over the gate. -/
structure Gate.Lawful (g : Gate) : Prop where
  single : g.stepClaims ≤ 1
  normal : 0 < g.stepClaims → g.mode = .normal
  pending : g.slot ≠ .empty → g.mode = .normal ∧ g.stepClaims = 0
  held : g.mode = .normal → g.held = []

theorem State.gate_lawful_iff {s : State} : s.gate.Lawful ↔ StepLaw s := by
  constructor
  · rintro ⟨hsingle, hnormal, hpending, hheld⟩
    rw [← show _ ↔ s.gate.mode = .normal from s.tableNormal_iff] at hnormal hpending hheld
    exact ⟨hsingle, hnormal, hpending, hheld⟩
  · rintro ⟨hsingle, hnormal, hpending, hheld⟩
    rw [s.tableNormal_iff] at hnormal hpending hheld
    exact ⟨hsingle, hnormal, hpending, hheld⟩

theorem State.gate_stepClaims_eq_zero_iff {s : State} : s.gate.stepClaims = 0 ↔ s.stepOnWay = false := by
  rw [show s.stepOnWay = s.gate.claims.any (·.isStep) from rfl, List.any_eq_false]
  exact List.countP_eq_zero

/-! ### The moves that keep the law -/

namespace Gate.Lawful

variable {g : Gate} (hg : g.Lawful)

include hg

/-- In RESCAN no step claim is on its way and no commit is PENDING (R117). -/
theorem idle_of_rescan (h : g.mode ≠ .normal) : g.stepClaims = 0 ∧ g.slot = .empty :=
  ⟨Nat.eq_zero_of_not_pos (mt hg.normal h), by_contra fun hs => h (hg.pending hs).1⟩

/-- A commit is dropped or cancelled (R102, R122). -/
theorem emptied : Lawful { g with slot := .empty } :=
  ⟨hg.single, hg.normal, fun h => absurd rfl h, hg.held⟩

/-- A commit becomes PENDING past the check of BUSY (R113, R116). -/
theorem staged (hmode : g.mode = .normal) (hnone : g.stepClaims = 0) (slot : CommitSlot) :
    Lawful { g with slot } :=
  ⟨hg.single, hg.normal, fun _ => ⟨hmode, hnone⟩, hg.held⟩

/-- A step of the time empties the slot and hands its claim on, the only one (R114, R117). -/
theorem stepped (hmode : g.mode = .normal) (hnone : g.stepClaims = 0) {m : TimeMsg} :
    Lawful { g with slot := .empty, claims := g.claims ++ [m] } where
  single := by
    have h := List.countP_append (p := TimeMsg.isStep) (l₁ := g.claims) (l₂ := [m])
    exact h.trans_le (Nat.add_le_add (Nat.le_of_eq hnone) List.countP_le_length)
  normal _ := hmode
  pending h := absurd rfl h
  held := hg.held

/-- A claim that is no step claim comes or goes (R13, R43). -/
theorem of_stepClaims {claims : List TimeMsg} (h : claims.countP (·.isStep) = g.stepClaims) :
    Lawful { g with claims } where
  single := h.trans_le hg.single
  normal h0 := hg.normal (h ▸ h0)
  pending hs := ⟨(hg.pending hs).1, h.trans (hg.pending hs).2⟩
  held := hg.held

/-- The step claim is taken and the rescan begins, with no other step claim on its way (R127). -/
theorem rescanned {m : TimeMsg} {rest : List TimeMsg} (hclaims : g.claims = m :: rest)
    (hm : m.isStep = true) (r : Rescan) :
    Lawful { g with claims := rest, mode := .rescan r, held := [] } := by
  have hcount : g.stepClaims = rest.countP (·.isStep) + 1 := by
    rw [Gate.stepClaims, hclaims, List.countP_cons_of_pos hm]
  have hrest : rest.countP (·.isStep) = 0 := by
    have := hg.single
    omega
  have hslot : g.slot = .empty := by_contra fun hs => by
    have := (hg.pending hs).2
    omega
  exact ⟨hrest.trans_le (Nat.zero_le _), fun h => absurd hrest (Nat.ne_of_gt h),
    fun h => absurd hslot h, nofun⟩

/-- A rescan goes on, takes a release claim to hold, or ends with none held (R38, R128, R135). -/
theorem inRescan (h : g.mode ≠ .normal) {mode : TableMode} {held : List Port}
    (hheld : mode = .normal → held = []) : Lawful { g with mode, held } := by
  obtain ⟨hnone, hslot⟩ := hg.idle_of_rescan h
  exact ⟨hg.single, fun h0 => absurd hnone (Nat.ne_of_gt h0), fun hs => absurd hslot hs, hheld⟩

end Gate.Lawful

/-! ### The commands with a part in the gate -/

/-- A lease-end claim at the Timebase leaves the commit slot EMPTY (R102). -/
theorem State.takeLeaseEnd_gate (s : State) (m : LeaseEndMsg) :
    (s.takeLeaseEnd m).gate = { s.gate with slot := .empty } := by
  have hclaims := congrArg Schedule.timeClaims (s.takeLeaseEnd_schedule m)
  rw [State.takeLeaseEnd_frame] at hclaims ⊢
  exact congrArg (fun l => { s.gate with slot := .empty, claims := l }) hclaims

/-- A commit that passes the checks of R113 finds the mode NORMAL and no step claim on its way. -/
theorem commitCheck_ok_free {p : Port} {body : List Byte} {s : State} {r : CommitMode × Nat}
    (h : commitCheck p body s = .ok r) : s.table.mode = .normal ∧ s.stepOnWay = false := by
  unfold commitCheck at h
  split at h
  · cases h
  · split at h
    · cases h
    · rename_i hfree
      simpa [State.tableNormal] using hfree

/-- A state whose gate obeys the law of the step claims. -/
def Gated (s : State) : Prop := s.gate.Lawful

namespace Gated

variable {s : State}

theorem of_gate {t : State} (hs : Gated s) (h : t.gate = s.gate) : Gated t := by
  unfold Gated
  rwa [h]

theorem takeLeaseEnd (hs : Gated s) (m : LeaseEndMsg) : Gated (s.takeLeaseEnd m) := by
  unfold Gated
  rw [State.takeLeaseEnd_gate]
  exact hs.emptied

theorem throughGate {p : Port} {act : State → State} (hact : ∀ t, Gated t → Gated (act t)) (s : State)
    (hs : Gated s) : Gated (throughGate p act s) :=
  leaseGate_keeps (fun _ _ h => h) (fun h => h.of_gate (s.settleSessionEnds_gate p))
    (fun _ ht => hact _ (State.settleLeaseEnds_keeps (fun _ _ h => h) (fun _ m h => h.takeLeaseEnd m) ht)) hs

/-- A step of the time while the mode is NORMAL and no step claim is on its way. -/
theorem stepTime (hs : Gated s) (hmode : s.table.mode = .normal) (hnone : s.gate.stepClaims = 0)
    (fromAdvance : Bool) (instant : Nat) (delta : Int) : Gated (s.stepTime fromAdvance instant delta) :=
  Gate.Lawful.stepped hs hmode hnone

theorem commitAct {p : Port} {body : List Byte} (s : State) (hs : Gated s) : Gated (commitAct p body s) := by
  unfold Machine.commitAct
  split
  · exact hs
  · rename_i mode staged hok
    obtain ⟨hmode, hway⟩ := commitCheck_ok_free hok
    have hnone := State.gate_stepClaims_eq_zero_iff.mpr hway
    show Gated (commitEffect p mode staged s).1
    cases mode with
    | step => exact hs.stepTime hmode hnone _ _ _
    | onSecond => exact Gate.Lawful.staged hs hmode hnone _
    | slew =>
      unfold commitEffect
      dsimp only
      split <;> exact Gate.Lawful.emptied hs

/-- An advance takes a PENDING commit, which has held the mode NORMAL and kept step claims off the way
(R117), or hands on an epoch-end claim at most. -/
theorem takeAdvance (hs : Gated s) : Gated (takeAdvance s) := by
  rcases takeAdvance_cases s with ⟨second, p, hslot, -, e⟩ | ⟨-, -, -, e⟩ | ⟨-, e⟩ <;> rw [e]
  · obtain ⟨hmode, hnone⟩ := hs.pending fun h => nomatch hslot.symm.trans h
    exact hs.stepTime hmode hnone _ _ _
  · refine Gate.Lawful.of_stepClaims hs ?_
    exact List.countP_append
  · exact hs.of_gate (moveInstant_gate _ s)

theorem stepClaim (hs : Gated s) : Answers Gated (execStepClaim s) := by
  refine answers_next.mpr ?_
  split
  · exact hs
  · rename_i m hready
    split
    · exact hs
    · rename_i hstep
      split
      · exact Gate.Lawful.rescanned hs (State.timeClaimReady_head hready)
          (by rw [TimeMsg.isStep, hstep]) _
      · exact hs

theorem rescanVisit (hs : Gated s) : Answers Gated (execRescanVisit s) := by
  refine answers_next.mpr ?_
  split
  · exact hs
  · rename_i r hmode
    have hrescan : s.gate.mode ≠ .normal := fun h => nomatch hmode.symm.trans h
    have hmoved (r' : Rescan) {t : State} (ht : t.gate = s.gate) :
        Gated { t with table := { t.table with mode := .rescan r' } } := by
      rw [← ht] at hrescan
      exact Gate.Lawful.inRescan (of_gate hs ht) hrescan nofun
    split
    · dsimp only
      split
      · exact hmoved _ (visitEntry_gate _ s r _)
      · exact hmoved _ rfl
    · exact hs

theorem rescanEnd (hs : Gated s) : Answers Gated (execRescanEnd s) := by
  refine answers_next.mpr ?_
  split
  · exact hs
  · rename_i r hmode
    have hrescan : s.gate.mode ≠ .normal := fun h => nomatch hmode.symm.trans h
    have hreleased : (s.table.heldReleases.foldl State.releaseEntries s.looksLost).gate = s.gate :=
      releaseEntries_foldl_gate s.table.heldReleases s.looksLost
    split
    · rw [← hreleased] at hrescan
      exact Gate.Lawful.inRescan (of_gate hs hreleased) hrescan fun _ => rfl
    · exact hs

theorem epochEndClaim (hs : Gated s) : Answers Gated (execEpochEndClaim s) := by
  refine answers_next.mpr ?_
  split
  · exact hs
  · rename_i m hready
    split
    · exact hs
    · rename_i hepoch
      refine of_gate ?_ (epochEndSlot_foldl_gate _ _)
      refine Gate.Lawful.of_stepClaims hs ?_
      rw [Gate.stepClaims, show s.gate.claims = _ from State.timeClaimReady_head hready,
        List.countP_cons_of_neg (by rw [TimeMsg.isStep, hepoch]; exact nofun)]
      rfl

theorem releaseClaim (hs : Gated s) (p : Port) : Answers Gated (execReleaseClaim p s) := by
  refine answers_next.mpr ?_
  split
  · dsimp only
    split
    · exact of_gate hs (State.releaseEntries_gate _ p)
    · rename_i hmode
      have hrescan : s.gate.mode ≠ .normal := mt s.tableNormal_iff.mpr hmode
      exact Gate.Lawful.inRescan hs hrescan fun h => absurd h hrescan
  · exact hs

theorem coldStart (s : State) (pf rst : Bool) (good : Option Straps) :
    Answers Gated (execColdStart pf rst s good) := by
  have hcold : Gated (State.cold s.pending s.freeIndex pf rst good.isSome (good.getD s.pins)) :=
    ⟨Nat.zero_le _, fun _ => rfl, fun h => absurd rfl h, fun _ => rfl⟩
  refine answers_next.mpr ?_
  split
  · split <;> exact hcold
  · exact hcold

/-! ### Every command and every step -/

theorem exec (c : Instr) (s : State) (hs : Gated s) : Answers Gated (exec c s) := by
  cases c with
  | commitTime p h a f => exact answers_request (fun _ _ ht => ht) (throughGate commitAct) hs
  | cancelCommit p h a f =>
    exact answers_request (fun _ _ ht => ht) (throughGate fun _ ht => Gate.Lawful.emptied ht) hs
  | setTrim p h a f =>
    exact answers_request (fun _ _ ht => ht) (throughGate fun t ht => ht.of_gate (setTrimAct_gate p _ t)) hs
  | tuAdvance => exact answers_next.mpr (hs.of_gate (countAdvance_gate s)).takeAdvance
  | stepClaim => exact hs.stepClaim
  | rescanVisit => exact hs.rescanVisit
  | rescanEnd => exact hs.rescanEnd
  | epochEndClaim => exact hs.epochEndClaim
  | leaseEndClaim =>
    refine answers_next.mpr ?_
    split
    · exact hs
    · refine takeLeaseEnd ?_ _
      exact hs
  | releaseClaim p => exact hs.releaseClaim p
  | coldStart pf rst good => exact coldStart s pf rst good
  | _ => exact (exec_gate _ rfl s).imp fun _ h => hs.of_gate h

end Gated

/-- Settles O10: every command and the crystal cycle keep the law over the gate. -/
theorem stepLawKept : Obligations.StepLawKept := by
  have hkept : KeptByStep Gated :=
    keptByStep_of_exec (fun _ _ hs => hs) Gated.exec fun _ hs => hs
  intro s s' hs h
  exact State.gate_lawful_iff.mp (hkept s s' (State.gate_lawful_iff.mpr hs) h)

end Sys2Proof.Machine
end

section
/-! PROOFS. The length of a slew (O19), and the effects of a COMMIT_TIME that passes its checks (O22). -/

namespace Sys2Proof.Machine

/-! ### The advances of a slew (R120) -/

/-- One advance taken by a slew state, with the time units by which the instant has moved so far. -/
def advanced (x : Slew × Nat) : Slew × Nat := (x.1.advance.slew, x.2 + x.1.advance.amount)

theorem advanced_iterate_succ (n : Nat) (x : Slew × Nat) :
    (advanced^[n + 1] x).1 = (advanced^[n] x).1.advance.slew ∧
    ((advanced^[n + 1] x).2 : Int) = (advanced^[n] x).2 + (advanced^[n] x).1.advance.amount := by
  rw [Function.iterate_succ_apply']
  exact ⟨rfl, Nat.cast_add _ _⟩

/-- Short of the 64th advance the phase goes up by one. -/
theorem Slew.advance_of_phase {r : Int} {phase : Nat} (h : phase < 63) :
    (Slew.active r phase).advance = ⟨1, .active r (phase + 1), false⟩ := if_pos (Nat.succ_lt_succ h)

section Sign

variable {sign : Int} (hsign : sign = 1 ∨ sign = -1)

include hsign

/-- The 64th advance is gained or held by the sign of R, and brings R nearer to 0 by one. -/
theorem Slew.advance_of_last (m : Nat) :
    let a := (Slew.active (((m + 1 : Nat) : Int) * sign) 63).advance
    (a.amount : Int) = 1 + sign ∧ a.slew = if m = 0 then .idle else .active (m * sign) 0 := by
  rcases hsign with rfl | rfl
  · have hpos : (0 : Int) < m + 1 := by omega
    simp [Slew.advance, hpos]
  · have hneg : ¬ (0 : Int) < -1 + -m := by omega
    have hzero : (-1 + -m + 1 : Int) = -m := by omega
    simp [Slew.advance, hneg, hzero]

/-- After n advances of a slew begun with R at phase 0, short of its length: each 64 of them have brought
R nearer to 0 by one and moved the instant by one more, or one fewer, than ordinary ones. -/
theorem advanced_iterate {size n : Nat} (hn : n < 64 * size) :
    let x := advanced^[n] (.active (size * sign) 0, 0)
    x.1 = .active ((size - n / 64 : Nat) * sign) (n % 64) ∧ (x.2 : Int) = n + (n / 64 : Nat) * sign := by
  induction n with
  | zero => simp
  | succ n ih =>
    obtain ⟨hslew, hmoved⟩ := ih (Nat.lt_of_succ_lt hn)
    obtain ⟨hslew', hmoved'⟩ := advanced_iterate_succ n (.active (size * sign) 0, 0)
    rw [hslew] at hslew' hmoved'
    rw [hmoved] at hmoved'
    rcases Nat.lt_or_ge (n % 64) 63 with hphase | hphase
    · rw [Slew.advance_of_phase hphase] at hslew' hmoved'
      rw [show (n + 1) / 64 = n / 64 by omega, show (n + 1) % 64 = n % 64 + 1 by omega]
      refine ⟨hslew', hmoved'.trans ?_⟩
      push_cast
      ring
    · obtain ⟨m, hm⟩ : ∃ m, size - n / 64 = m + 1 + 1 := ⟨size - n / 64 - 2, by omega⟩
      obtain ⟨hamount, hnext⟩ := Slew.advance_of_last hsign (m + 1)
      rw [hm, show n % 64 = 63 by omega] at hslew' hmoved'
      rw [show (n + 1) / 64 = n / 64 + 1 by omega, show (n + 1) % 64 = 0 by omega,
        show size - (n / 64 + 1) = m + 1 by omega]
      refine ⟨hslew'.trans hnext, hmoved'.trans ?_⟩
      rw [hamount]
      push_cast
      ring

/-- The last advance of a slew finds one left of R at phase 63, and ends it. -/
theorem advanced_iterate_last (k : Nat) :
    let x := advanced^[64 * (k + 1)] (.active ((k + 1 : Nat) * sign) 0, 0)
    x.1 = .idle ∧ (x.2 : Int) = 64 * (k + 1 : Nat) + (k + 1 : Nat) * sign := by
  obtain ⟨hslew, hmoved⟩ := advanced_iterate hsign (size := k + 1) (n := 64 * k + 63) (by omega)
  obtain ⟨hslew', hmoved'⟩ := advanced_iterate_succ (64 * k + 63) (.active ((k + 1 : Nat) * sign) 0, 0)
  obtain ⟨hamount, hnext⟩ := Slew.advance_of_last hsign 0
  rw [show k + 1 - (64 * k + 63) / 64 = 0 + 1 by omega, show (64 * k + 63) % 64 = 63 by omega] at hslew
  rw [show (64 * k + 63) / 64 = k by omega] at hmoved
  rw [hslew] at hslew' hmoved'
  refine ⟨hslew'.trans hnext, hmoved'.trans ?_⟩
  rw [hmoved, hamount]
  push_cast
  ring

end Sign

/-- Settles O19: R is |R| times its sign, so its slew is still ACTIVE short of 64 × |R| advances
(`advanced_iterate`) and ends with the last of them (`advanced_iterate_last`). -/
theorem slewRunsItsLength : Obligations.SlewRunsItsLength := by
  intro r hr _
  obtain ⟨k, hk⟩ := Nat.exists_eq_succ_of_ne_zero (Int.natAbs_ne_zero.mpr hr)
  have hsign : r.sign = 1 ∨ r.sign = -1 := by
    rcases lt_or_gt_of_ne hr with h | h
    · exact .inr (Int.sign_eq_neg_one_of_neg h)
    · exact .inl (Int.sign_eq_one_of_pos h)
  have hsize : ((k + 1 : Nat) : Int) * r.sign = r := by
    rw [← Nat.succ_eq_add_one, ← hk, mul_comm, Int.sign_mul_natAbs]
  obtain ⟨hidle, hmoved⟩ := advanced_iterate_last hsign k
  have hactive {n : Nat} (hn : n < 64 * (k + 1)) := (advanced_iterate hsign hn).1
  rw [hsize] at hidle hmoved hactive
  rw [hk]
  exact ⟨hidle, hmoved, fun n hn h => nomatch (hactive hn).symm.trans h⟩

/-! ### A COMMIT_TIME that passes its checks (R114, R116, R119) -/

/-- A staged date that passes the last three checks, of which two are those of a slew. -/
theorem commitCheck_of_passed {s : State} {p : Port} {code m : Byte} {mode : CommitMode} {c : Calendar}
    (hm : CommitMode.ofByte m = some mode) (hnormal : s.table.mode = .normal) (hway : s.stepOnWay = false)
    (hc : (s.port p).staging.calendar = some c) (hreal : c.isReal = true)
    (hslew : mode = .slew → s.time.valid = true ∧
      ((c.toCount : Int) - s.time.instant).natAbs ≤ Config.slewLimit) :
    commitCheck p [code, m] s = .ok (mode, c.toCount) := by
  have hfree : ¬(s.table.mode ≠ .normal ∨ s.stepOnWay = true) := by simp [hnormal, hway]
  rw [commitCheck_of_complete hm hfree hc, hreal, if_neg (by decide),
    if_neg fun h => by simp [(hslew h.1).1] at h, if_neg fun h => Nat.not_lt.mpr (hslew h.1).2 h.2]

/-- The holder's COMMIT_TIME that passes its checks has its effect, and clears the staging record. -/
theorem exec_commitTime_passed {s : State} {p : Port} {h : Header} {m : Byte} {mode : CommitMode}
    {staged : Nat} (ht : s.takesOpen p h [0x22, m])
    (hp : (s.atLeaseUnit p h [0x22, m]).lease.holder = some p)
    (hok : commitCheck p [0x22, m] (s.atTimebase p h [0x22, m]) = .ok (mode, staged)) :
    let r := commitEffect p mode staged (s.atTimebase p h [0x22, m])
    exec (.commitTime p h [m]) s = .next
      ((r.1.onPort p fun c => { c with staging := Staging.absent }).respond p (0x00 :: r.2)) := by
  rw [exec_commitTime ht, throughGate_of_holder hp, commitAct, hok]
  rfl

/-- A slew begins with its offset, or is done at once at offset 0 (R119). -/
theorem commitEffect_slew (p : Port) (staged : Nat) (s : State) :
    let off : Int := (staged : Int) - s.time.instant
    (off ≠ 0 → commitEffect p .slew staged s =
      ({ s with time := { s.time with slot := .empty, slew := .active off 0 } }, [0x02])) ∧
    (off = 0 → commitEffect p .slew staged s =
      (({ s with time := { s.time with slot := .empty, slew := .idle } }).handNotice .timebase
        .slewDone .openSessions, [0x02])) := ⟨fun h => if_neg h, fun h => if_pos h⟩

/-- Settles O22: the checks pass (`commitCheck_of_passed`), and each mode has its effect. -/
theorem commitTakesEffect : Obligations.CommitTakesEffect := by
  intro s p h m c ht hp u hnormal hway hc hreal off done delta
  have hdone {mode : CommitMode} (hm : CommitMode.ofByte m = some mode)
      (hslew : mode = .slew → u.time.valid = true ∧ off.natAbs ≤ Config.slewLimit) :=
    exec_commitTime_passed ht hp (commitCheck_of_passed hm hnormal hway hc hreal hslew)
  refine ⟨?_, ?_, ?_, ?_⟩
  · rintro rfl
    exact hdone (mode := .step) rfl nofun
  · rintro rfl
    exact hdone (mode := .onSecond) rfl nofun
  · rintro rfl hvalid hoff hlimit
    have hcommit := hdone (mode := .slew) rfl fun _ => ⟨hvalid, hlimit⟩
    rwa [(commitEffect_slew p c.toCount u).1 hoff] at hcommit
  · rintro rfl hvalid hoff
    have hcommit := hdone (mode := .slew) rfl fun _ => ⟨hvalid, by rw [hoff]; decide⟩
    rwa [(commitEffect_slew p c.toCount u).2 hoff] at hcommit

end Sys2Proof.Machine
end

section
/-! PROOFS. The checks and phases of a request at its Port Controller (O27). -/

namespace Sys2Proof.Machine

/-! ### Handing on a request that waits (R148, R165) -/

/-- A request waits where it is in service without a response and no KICK of its port in service is on its
way (R148, R151). -/
theorem State.waits_iff {s : State} {p : Port} {h : Header} {body : List Byte} :
    s.waits p h body = true ↔ (s.port p).service = some ⟨h, body, none⟩ ∧
      ∀ k ∈ s.transit.kicks, k.sender = p → k.live = false := by
  simp only [State.waits, Bool.and_eq_true, beq_iff_eq, Bool.not_eq_true', List.any_eq_false, not_and',
    Bool.not_eq_true]

/-- A request that its port has just taken into service waits, unless a KICK of the port is on its way. -/
theorem State.serving_waits {s : State} {p : Port} {h : Header} {body : List Byte}
    (hk : ∀ k ∈ s.transit.kicks, k.sender = p → k.live = false) :
    (s.serving p h body).waits p h body = true :=
  State.waits_iff.mpr ⟨by rw [State.serving_port_self, PortCtl.serving_service], hk⟩

/-- A request that waits and has passed the checks of its Port Controller reaches its owning block. -/
theorem request_handedOn_of_waits {p : Port} {h : Header} {body : List Byte} {lengthOk gated : Bool}
    {act : State → State} {s : State} (hr : s.standby.running = true) (hw : s.waits p h body = true)
    (hl : lengthOk = true) (hg : gated = true → (s.port p).session.isOpen = true) :
    request .handedOn p h body lengthOk gated act s = act s := by
  refine if_pos ?_
  cases gated with
  | false => simp [hr, hw, hl]
  | true => simp [hr, hw, hl, hg rfl]

/-- Accepting a request and then handing it on is the whole request (R148, R165). -/
theorem request_handedOn_serving {p : Port} {h : Header} {body : List Byte} {lengthOk gated : Bool}
    {act : State → State} {s : State} (ht : s.takes p h body) (hl : lengthOk = true)
    (hg : gated = true → (s.port p).session.isOpen = true)
    (hk : ∀ k ∈ s.transit.kicks, k.sender = p → k.live = false) :
    request .handedOn p h body lengthOk gated act (s.serving p h body) =
      request .whole p h body lengthOk gated act s := by
  rw [request_whole, serve_of_takes ht hl hg]
  have hrunning : s.standby.running = true := State.running_of_listening ht.1.1
  refine request_handedOn_of_waits (by exact hrunning) (State.serving_waits hk) hl fun g => ?_
  rw [State.serving_port_self, PortCtl.serving_session, Session.reloaded_isOpen, hg g]

/-! ### The refusals of the Port Controller (R139, R165, R182) -/

theorem exec_unknownRequest {s : State} {p : Port} {h : Header} {body : List Byte}
    (ht : s.takes p h body) (hc : codeUndefined body = true) :
    exec (.unknownRequest p h body) s = .next (s.answered p h body [0x0C]) :=
  congrArg Host.Outcome.next ((if_pos hc).trans (serve_of_takes (gated := false)
    (act := fun s => s.respond p (refusal .unknown)) ht rfl nofun))

/-- The checks of a new request come first both where it is whole and where it is accepted alone. -/
theorem request_of_not_handedOn {f : Phase} (hf : f ≠ .handedOn) (p : Port) (h : Header)
    (body : List Byte) (lengthOk gated : Bool) (act : State → State) : ∃ act', ∀ s,
      request f p h body lengthOk gated act s = serve p h body lengthOk gated act' s := by
  cases f with
  | whole => exact ⟨act, fun _ => rfl⟩
  | accepted => exact ⟨id, fun _ => rfl⟩
  | handedOn => exact absurd rfl hf

/-! ### What an answered request leaves (R146, R164, R165) -/

/-- Accepting a frame reloads a running keepalive count (R146). -/
theorem Session.reloaded_running {x : Session} (ho : x.isOpen = true) (hk : 0 < x.keepalive) :
    x.reloaded = { x with keepCount := some x.keepalive } := if_pos ⟨ho, hk⟩

/-- Without a session or without a keepalive there is no count to reload (R146). -/
theorem Session.reloaded_idle {x : Session} (h : x.isOpen = false ∨ x.keepalive = 0) : x.reloaded = x := by
  refine if_neg fun ⟨ho, hk⟩ => ?_
  rcases h with h | h
  · exact absurd ho (by simp [h])
  · exact hk.ne' h

/-- A receiver in HUNT gathers no frame that an accepted one could abort (R159). -/
theorem PortCtl.frameTaken_of_hunt {c : PortCtl} (h : c.rx = .hunt) (bs : List Byte) :
    c.frameTaken bs = c := by
  unfold PortCtl.frameTaken
  rw [h]

theorem PortCtl.serving_lastError_of_hunt {c : PortCtl} (hc : c.rx = .hunt) (h : Header)
    (body : List Byte) : (c.serving h body).lastError = c.lastError := by
  unfold PortCtl.serving
  rw [PortCtl.frameTaken_of_hunt hc]
  rfl

theorem State.answered_port_self (s : State) (p : Port) (h : Header) (body r : List Byte) :
    (s.answered p h body r).port p =
      { (s.port p).serving h body with service := some ⟨h, body, some ⟨r, false⟩⟩ } := by
  unfold State.answered
  rw [State.respond_port_self, State.serving_port_self, PortCtl.serving_respond]

theorem State.answered_port_ne (s : State) {p q : Port} (hq : q ≠ p) (h : Header) (body r : List Byte) :
    (s.answered p h body r).port q = s.port q := by
  unfold State.answered
  rw [State.respond_port_ne _ hq, State.serving_port_ne s hq]

/-- An answered request has changed its port's controller alone. -/
theorem State.answered_frame (s : State) (p : Port) (h : Header) (body r : List Byte) :
    s.answered p h body r =
      { s with ports := s.ports.set p ((s.answered p h body r).port p) } := by
  rw [State.answered_port_self]
  unfold State.answered State.respond State.serving
  rw [State.onPort_onPort]
  rfl

/-- Settles O27: the refusals are those of `serve`, a request handed on is the act of the whole one
(`request_handedOn_serving`), and what stands after an answer is read off `State.answered_port_self`. -/
theorem portControllerRefusals : Obligations.PortControllerRefusals := by
  refine ⟨fun s p h body => exec_unknownRequest, ?_, ?_, ?_, ?_⟩
  · intro i r s hi hphase ht
    obtain ⟨act, hexec⟩ := exec_request i r hi
    obtain ⟨act', hserve⟩ := request_of_not_handedOn hphase r.port r.header r.body r.lengthOk r.gated act
    rw [hexec, hserve]
    exact ⟨fun hl => congrArg Host.Outcome.next (serve_badLength ht hl),
      fun hl hg ho => congrArg Host.Outcome.next (serve_noSession ht hl hg ho)⟩
  · intro i r s hi ht hl hg
    obtain ⟨act, hexec⟩ := exec_inPhase i r hi
    have haccepted : exec (i.inPhase .accepted) s = .next (s.serving r.port r.header r.body) :=
      (hexec .accepted s).trans (congrArg Host.Outcome.next (serve_of_takes ht hl hg))
    refine ⟨fun hphase => ?_, fun hphase hk => ⟨haccepted, ?_⟩⟩
    · have hself : i.inPhase .accepted = i := hphase ▸ inPhase_self i r hi
      rwa [hself] at haccepted
    · have hself : i.inPhase .whole = i := hphase ▸ inPhase_self i r hi
      rw [hexec, request_handedOn_serving ht hl hg hk, ← hexec, hself]
  · intro i r s hi hphase hnone
    obtain ⟨act, hexec⟩ := exec_request i r hi
    rw [hexec, hphase, request_handedOn_none]
    refine hnone.imp id fun hidle => Bool.eq_false_iff.mpr fun hw => ?_
    obtain ⟨hservice, hkicks⟩ := State.waits_iff.mp hw
    rcases hidle with hne | ⟨k, hk, hlive, hsender⟩
    · exact hne hservice
    · exact absurd hlive (by simp [hkicks k hk hsender])
  · intro s p h body response t
    have hport : t.port p = _ := s.answered_port_self p h body response
    refine ⟨s.answered_frame p h body response, ?_⟩
    rw [hport]
    have hsession := (s.port p).serving_session h body
    exact ⟨rfl, PortCtl.serving_rx .., fun ho hk => hsession.trans (Session.reloaded_running ho hk),
      fun hidle => hsession.trans (Session.reloaded_idle hidle),
      fun hhunt => PortCtl.serving_lastError_of_hunt hhunt h body, PortCtl.serving_cache ..,
      PortCtl.serving_tx .., PortCtl.serving_delivery .., PortCtl.serving_staging ..,
      PortCtl.serving_rdy .., PortCtl.serving_awaitMark ..,
      fun q hq => s.answered_port_ne hq h body response⟩

end Sys2Proof.Machine
end

section
/-! PROOFS. KICK (O32), and the keepalive count (O33). -/

namespace Sys2Proof.Machine

/-! ### KICK at the supervisor's controller (R151) -/

theorem exec_kick {s : State} {p : Port} {h : Header} {b : Byte} (ht : s.takesOpen p h [0x50, b]) :
    exec (.kick p h [b]) s = .next (kickAct p h [0x50, b] (s.serving p h [0x50, b])) :=
  congrArg Host.Outcome.next (serve_of_takes ht.1 rfl fun _ => ht.2)

section Kick

variable {s : State} {p q : Port} {h : Header} {body : List Byte}

theorem kickAct_of_other (hp : p ≠ s.supervisor) : kickAct p h body s = s.respond p [0x03] := if_pos hp

/-- The supervisor's KICK of a port beyond P3. -/
theorem kickAct_of_large (hp : p = s.supervisor) (hb : 3 < (byteAt body 1).toNat) :
    kickAct p h body s = s.respond p [0x08] := by
  unfold kickAct
  rw [if_neg (not_not_intro hp), portOf_of_large hb]
  rfl

/-- The supervisor's KICK of a port: of its own, which is a CLOSE, or of another, which goes on its way. -/
theorem kickAct_of_port (hp : p = s.supervisor) (hq : byteAt body 1 = portByte q) :
    kickAct p h body s =
      if q = p then closeWith p h body [0x00, 0x01] s
      else { s with transit := { s.transit with kicks := s.transit.kicks ++ [⟨p, q, true⟩] } } := by
  unfold kickAct
  rw [if_neg (not_not_intro hp), hq, portOf_portByte]
  rfl

/-! ### KICK at the named port (R151) -/

/-- The named port takes the oldest KICK on its way to it, off that way. -/
theorem execKickAtNamedPort_of_find {k : KickMsg} (hk : s.transit.kicks.find? (·.named == q) = some k) :
    let u := { s with transit := { s.transit with kicks := s.transit.kicks.erase k } }
    execKickAtNamedPort q s = .next (if (s.port q).session.isOpen
      then kickVerdict k [0x00, 0x01] (u.teardown q .kick) else kickVerdict k [0x07] u) := by
  unfold execKickAtNamedPort
  rw [hk]
  rfl

end Kick

/-- Settles O32: KICK is `kickAct` by its checks in their order, and the named port's verdict goes by
whether its session is OPEN. -/
theorem kickDecided : Obligations.KickDecided := by
  refine ⟨?_, ?_⟩
  · intro s p h b ht u answers
    have hanswers {t : State} (hact : kickAct p h [0x50, b] u = t) : answers t := hact ▸ exec_kick ht
    have hnamed {q : Port} (hp : p = s.supervisor) (hb : b = portByte q) :=
      kickAct_of_port (s := u) (h := h) (body := [0x50, b]) hp hb
    exact ⟨fun hp => hanswers (kickAct_of_other hp),
      fun hp hb => hanswers (kickAct_of_large hp hb),
      fun hp hb => hanswers ((hnamed hp hb).trans (if_pos rfl)),
      fun q hp hq hb => hanswers ((hnamed hp hb).trans (if_neg hq))⟩
  · intro s q k hk u v
    have hexec : exec (.kickAtNamedPort q) s = _ := execKickAtNamedPort_of_find hk
    refine ⟨fun ho => ?_, fun hc => ?_⟩
    · exact hexec.trans (congrArg Host.Outcome.next (if_pos ho))
    · exact hexec.trans (congrArg Host.Outcome.next (if_neg (Bool.eq_false_iff.mp hc)))

/-! ### The oscillator second at a Port Controller (R146) -/

section Seconds

variable {s : State} {p : Port}

/-- An oscillator second has nothing to count in a held port domain, or without a session or a count. -/
theorem portSecond_of_idle (h : s.standby.running = false ∨ (s.port p).session.isOpen = false ∨
    (s.port p).session.keepCount = none) : portSecond p s = s := by
  unfold portSecond
  rcases h with h | h | h <;> simp [h]

theorem portSecond_of_counting {n : Nat} (hr : s.standby.running = true)
    (ho : (s.port p).session.isOpen = true) (hk : (s.port p).session.keepCount = some (n + 1)) :
    portSecond p s = s.onPort p fun c => { c with session := { c.session with keepCount := some n } } := by
  simp [portSecond, hr, ho, hk]

theorem portSecond_of_zero (hr : s.standby.running = true) (ho : (s.port p).session.isOpen = true)
    (hk : (s.port p).session.keepCount = some 0) : portSecond p s = s.teardown p .timeout := by
  simp [portSecond, hr, ho, hk]

end Seconds

/-- Settles O33: the second uses up its mark and is `portSecond` by what the count stands at;
KEEPALIVE_TIMEOUT is the second that finds 0. -/
theorem keepaliveSecondsCount : Obligations.KeepaliveSecondsCount := by
  intro s p u second
  refine ⟨fun h => ?_, fun n hr ho hk => ?_, fun hr ho hk => ?_⟩
  · exact congrArg Host.Outcome.next (portSecond_of_idle (s := u) h)
  · exact congrArg Host.Outcome.next (portSecond_of_counting (s := u) hr ho hk)
  · have hended : portSecond p u = u.teardown p .timeout := portSecond_of_zero hr ho hk
    exact ⟨congrArg Host.Outcome.next hended,
      congrArg Host.Outcome.next ((if_pos hk).trans hended)⟩

end Sys2Proof.Machine
end

section
/-! PROOFS. SET_QUOTA (O42). -/

namespace Sys2Proof.Machine

theorem exec_setQuota {s : State} {p : Port} {h : Header} {a n : Byte}
    (ht : s.takesOpen p h [0x51, a, n]) :
    exec (.setQuota p h [a, n]) s = .next (setQuotaAct p [0x51, a, n] (s.serving p h [0x51, a, n])) :=
  congrArg Host.Outcome.next (serve_of_takes ht.1 rfl fun _ => ht.2)

section SetQuota

variable {s : State} {p q : Port} {body : List Byte}

theorem setQuotaAct_of_other (hm : s.table.mode = .normal) (hp : p ≠ s.supervisor) :
    setQuotaAct p body s = s.respond p [0x03] := (whenNormal_of_normal hm).trans (if_pos hp)

/-- The supervisor's SET_QUOTA of a port beyond P3 or of a quota above 64. -/
theorem setQuotaAct_of_bad (hm : s.table.mode = .normal) (hp : p = s.supervisor)
    (h : 3 < (byteAt body 1).toNat ∨ 64 < (byteAt body 2).toNat) :
    setQuotaAct p body s = s.respond p [0x08] := by
  unfold setQuotaAct
  rw [whenNormal_of_normal hm, if_neg (not_not_intro hp)]
  dsimp only
  split
  · rfl
  · rename_i q hq
    have hn := h.resolve_left fun ha => by simp [portOf_of_large ha] at hq
    exact if_pos hn

/-- The supervisor's SET_QUOTA with both values in range: the sum is checked, then the owned count, and
then the quota is set (R152). -/
theorem setQuotaAct_of_port (hm : s.table.mode = .normal) (hp : p = s.supervisor)
    (hq : byteAt body 1 = portByte q) (hn : (byteAt body 2).toNat ≤ 64) :
    let n := byteAt body 2
    let quota := s.table.quota.set q n.toNat
    setQuotaAct p body s =
      if 64 < quotaSum quota then s.respond p [0x06]
      else if n.toNat < s.ownedCount q then s.respond p [0x07]
      else ({ s with table := { s.table with quota } }).respond p
        [0x00, n, byteOf (s.ownedCount q), byteOf (quotaSum quota)] := by
  intro n quota
  have hbyte : byteOf n.toNat = n := BitVec.ofNat_toNat ..
  unfold setQuotaAct
  rw [whenNormal_of_normal hm, if_neg (not_not_intro hp), hq, portOf_portByte]
  dsimp only
  rw [if_neg (Nat.not_lt_of_le hn), hbyte]
  rfl

end SetQuota

/-- Settles O42: the checks of `setQuotaAct` in their order. -/
theorem setQuotaDecided : Obligations.SetQuotaDecided := by
  intro s p h a n body ht answers checked
  have hanswers {t : State} (hact : setQuotaAct p body (s.serving p h body) = t) : answers t :=
    hact ▸ exec_setQuota ht
  refine ⟨fun hm => hanswers (whenNormal_of_rescan hm),
    fun hm hp => hanswers (setQuotaAct_of_other hm hp),
    fun ⟨hm, hp⟩ hbad => hanswers (setQuotaAct_of_bad hm hp hbad), fun q ⟨hm, hp⟩ hq hn => ?_⟩
  have hact := setQuotaAct_of_port (s := s.serving p h body) (body := body) hm hp hq hn
  have hroom (hsum : quotaSum (s.table.quota.set q n.toNat) ≤ 64) :=
    hact.trans (if_neg (Nat.not_lt_of_le hsum))
  exact ⟨fun hsum => hanswers (hact.trans (if_pos hsum)),
    fun hsum howned => hanswers ((hroom hsum).trans (if_pos howned)),
    fun hsum howned => hanswers ((hroom hsum).trans (if_neg (Nat.not_lt_of_le howned)))⟩

end Sys2Proof.Machine
end

section
/-! PROOFS. A retried request and an overrun (O28). -/

namespace Sys2Proof.Machine

/-- A retry of the cached sequence is replayed (R165, R167). -/
theorem PortCtl.replays_of_cached {c : PortCtl} {h : Header} {k : Cached} (hc : c.cache = some k)
    (hretry : h.retry = true) (hseq : h.seq = k.seq) : c.replays h = some k.body := by
  unfold PortCtl.replays
  rw [hc]
  exact if_pos ⟨hretry, hseq.symm⟩

/-- A request that the response cache answers is in service with that answer, whatever its length and
the session. -/
theorem serve_replay {p : Port} {h : Header} {body cached : List Byte} {lengthOk gated : Bool}
    {act : State → State} {s : State} (hh : s.hears p body) (hs : (s.port p).service = none)
    (hr : (s.port p).replays h = some cached) :
    serve p h body lengthOk gated act s = s.onPort p fun c =>
      { c.serving h body with service := some ⟨h, body, some ⟨cached, true⟩⟩ } := by
  have hnew : ¬ s.takes p h body := fun ⟨_, _, hnone⟩ => by simp [hr] at hnone
  rcases serve_cases p h body lengthOk gated act s with
    ⟨hl, -⟩ | ⟨-, hb, -⟩ | ⟨-, hb, -⟩ | ⟨-, -, k, hk, e⟩ | ⟨ht, -⟩ | ⟨ht, -⟩ | ⟨ht, -⟩
  · simp [hh.1] at hl
  · exact absurd hh.2 (Nat.not_le_of_lt hb)
  · simp [hs] at hb
  · obtain rfl : cached = k := Option.some.inj (hr.symm.trans hk)
    exact e
  all_goals exact absurd ht hnew

/-- A new request is taken into service, whole or accepted alone, by one set of checks (R163 to R167). -/
theorem exec_newRequest {i : Instr} {r : RequestForm} (hi : i.request = some r)
    (hphase : r.phase ≠ .handedOn) : ∃ act, ∀ s,
      exec i s = .next (serve r.port r.header r.body r.lengthOk r.gated act s) := by
  obtain ⟨act, hexec⟩ := exec_request i r hi
  obtain ⟨act', hserve⟩ := request_of_not_handedOn hphase r.port r.header r.body r.lengthOk r.gated act
  exact ⟨act', fun s => (hexec s).trans (congrArg Host.Outcome.next (hserve s))⟩

/-- Settles O28: a new request is `serve` whole or accepted alone, and `serve` replays a cached answer
and discards an overrun before it looks at anything else. -/
theorem replayAndOverrun : Obligations.ReplayAndOverrun := by
  refine ⟨fun i r s k hi hphase hh hs hc hretry hseq => ?_, fun i r s hi hphase hh hs => ?_,
    fun s p h body hh hs => ?_⟩
  · obtain ⟨act, hexec⟩ := exec_newRequest hi hphase
    rw [hexec, serve_replay hh hs (PortCtl.replays_of_cached hc hretry hseq)]
  · obtain ⟨act, hexec⟩ := exec_newRequest hi hphase
    rw [hexec, serve_overrun hh hs]
  · exact congrArg Host.Outcome.next ((if_pos hs).trans (serve_overrun hh hs))

end Sys2Proof.Machine
end

section
/-! PROOFS. The receiver's checks and its events (O58). -/

namespace Sys2Proof.Machine

/-! ### One character in HUNT and in IN_FRAME (R158, R159) -/

section TakeChar

variable {ch : RxChar} {hd len : Byte} {got body : List Byte}

theorem takeChar_hunt (ch : RxChar) : takeChar .hunt ch =
    if ch.mark = false then .goOn .hunt
    else if ch.stopGood then .goOn (.inFrame [ch.data]) else .fail .hunt .framing := by
  show takeInHunt ch = _
  unfold takeInHunt
  cases ch.mark <;> rfl

theorem takeChar_badStop (hs : ch.stopGood = false) :
    takeChar (.inFrame got) ch = .fail .hunt .framing := if_pos (by rw [hs]; rfl)

theorem takeChar_header (hs : ch.stopGood = true) (hm : ch.mark = true) :
    takeChar (.inFrame got) ch = .fail (.inFrame [ch.data]) .aborted :=
  (if_neg (by simp [hs])).trans (if_pos hm)

/-- The length character (R158). -/
theorem takeChar_length (hs : ch.stopGood = true) (hm : ch.mark = false) :
    takeChar (.inFrame [hd]) ch =
      if ch.data.toNat ≤ Config.bodyRoom then .goOn (.inFrame [hd, ch.data])
      else .fail .hunt .length :=
  (if_neg (by simp [hs])).trans (if_neg (by simp [hm]))

/-- A character behind the length: a frame still short of its two CRC characters goes on, and a whole
one is accepted or discarded by its CRC (R158, R159). -/
theorem takeChar_behindLength (hs : ch.stopGood = true) (hm : ch.mark = false) :
    takeChar (.inFrame (hd :: len :: body)) ch =
      if body.length < len.toNat + 1 then .goOn (.inFrame (hd :: len :: (body ++ [ch.data])))
      else if crcGood (hd :: len :: (body ++ [ch.data])) then ⟨.hunt, none, true⟩
      else .fail .hunt .crc := by
  show takeInFrame _ _ = _
  unfold takeInFrame
  rw [if_neg (by simp [hs]), if_neg (by simp [hm])]
  cases body <;> simp

theorem crcGood_append (front : List Byte) (hi lo : Byte) :
    crcGood (front ++ [hi, lo]) = ([hi, lo] == crcBytes front) := by
  simp [crcGood]

/-- The low CRC character decides the frame (R157, R159). -/
theorem takeChar_lastCrc {hi : Byte} (hs : ch.stopGood = true) (hm : ch.mark = false)
    (hb : body.length = len.toNat) :
    takeChar (.inFrame (hd :: len :: (body ++ [hi]))) ch =
      if [hi, ch.data] = crcBytes (hd :: len :: body) then ⟨.hunt, none, true⟩
      else .fail .hunt .crc := by
  have hcrc : crcGood (hd :: len :: (body ++ [hi] ++ [ch.data])) =
      ([hi, ch.data] == crcBytes (hd :: len :: body)) := by
    rw [← crcGood_append]
    simp
  rw [takeChar_behindLength hs hm, if_neg (by simp [hb]), hcrc]
  simp

end TakeChar

/-! ### The events (R160 to R163) -/

/-- A header starts a frame, and ends one being gathered (R158, R159). -/
theorem PortCtl.received_header (c : PortCtl) (data : Byte) :
    c.received (takeChar c.rx ⟨data, true, true⟩) = { c with
      rx := .inFrame [data], lastError := if c.rx = .hunt then c.lastError else .aborted } := by
  unfold PortCtl.received
  cases hrx : c.rx with
  | hunt => rfl
  | inFrame got => rw [takeChar_header rfl rfl]; rfl

/-- The character of a break has no good stop bit, which matters to a frame alone (R159, R162). -/
theorem PortCtl.received_break (c : PortCtl) :
    c.received (takeChar c.rx breakChar) = { c with
      rx := .hunt, lastError := if c.rx = .hunt then c.lastError else .framing } := by
  unfold PortCtl.received
  cases hrx : c.rx with
  | hunt => rfl
  | inFrame got => rw [takeChar_badStop rfl]; rfl

section Events

variable {s : State} {p : Port}

theorem exec_receiveError {chars : List RxChar} (hl : s.listening p = true)
    (ha : (takeChars (s.port p).rx chars).accepted = false) :
    exec (.receiveError p chars) s =
      .next (s.onPort p fun c => c.received (takeChars (s.port p).rx chars)) :=
  congrArg Host.Outcome.next (if_pos ⟨hl, ha⟩)

theorem exec_frameHeader {data : Byte} (hl : s.listening p = true) :
    exec (.frameHeader p data) s =
      .next (s.onPort p fun c => c.received (takeChar c.rx ⟨data, true, true⟩)) :=
  congrArg Host.Outcome.next (if_pos hl)

theorem exec_gap (hl : s.listening p = true) :
    exec (.gap p) s = .next (if (s.port p).rx = .hunt then s
      else s.onPort p fun c => { c with rx := .hunt, lastError := .gap }) := by
  refine congrArg Host.Outcome.next ((if_pos hl).trans ?_)
  cases (s.port p).rx <;> rfl

/-- A break tears an OPEN session down behind the character it forms (R162). -/
theorem exec_breakLine (hl : s.listening p = true) :
    let t := s.onPort p fun c => { c.received (takeChar c.rx breakChar) with awaitMark := true }
    exec (.breakLine p) s =
      .next (if (s.port p).session.isOpen then t.teardown p .lineBreak else t) := by
  intro t
  have hopen : (t.port p).session = (s.port p).session := by
    rw [State.onPort_port_self]
    rfl
  rw [← hopen]
  exact congrArg Host.Outcome.next (if_pos hl)

theorem exec_unusedFrame {cls : UnusedClass} {h : Header} {body : List Byte} (hh : s.hears p body) :
    exec (.unusedFrame p cls h body) s =
      .next (s.onPort p fun c => c.heard (frameBytes (unusedFrameClass cls) h body)) := by
  have hfits : bodyFits body = true := by simpa [bodyFits] using hh.2
  show execUnusedFrame p cls h body s = _
  unfold execUnusedFrame
  rw [hh.1, hfits]
  rfl

end Events

/-- Settles O58: the checks by `takeChar_hunt` and the rules of a character in IN_FRAME, and the events
by what each makes of its port's controller. -/
theorem receiverStepsAndEvents : Obligations.ReceiverStepsAndEvents := by
  refine ⟨?_, ?_⟩
  · intro ch hd len body hi lo back on
    refine ⟨takeChar_hunt ch, fun got => takeChar_badStop, fun got => takeChar_header,
      fun hs hm => ⟨takeChar_length hs hm, fun hb => ?_, fun hb hlo => ?_⟩⟩
    · exact (takeChar_behindLength hs hm).trans (if_pos hb)
    · exact hlo ▸ takeChar_lastCrc hs hm hb
  · intro s p hl c put broken
    have hbroken : (s.onPort p fun c =>
        { c.received (takeChar c.rx breakChar) with awaitMark := true }) = put broken :=
      congrArg (fun c : PortCtl => put { c with awaitMark := true }) (PortCtl.received_break c)
    refine ⟨fun chars => exec_receiveError hl, fun data => ?_, fun got hrx => ?_, fun hrx => ?_,
      fun ho => ?_, fun ho => ?_, fun t ht => congrArg Host.Outcome.next (if_pos ht),
      fun cls h body hb => ?_⟩
    · rw [exec_frameHeader hl, State.onPort, PortCtl.received_header]
    · rw [exec_gap hl, if_neg (by simp [show (s.port p).rx = _ from hrx])]
      rfl
    · rw [exec_gap hl, if_pos hrx]
    · rw [exec_breakLine hl, if_pos ho, hbroken]
    · rw [exec_breakLine hl, if_neg (Bool.eq_false_iff.mp ho), hbroken]
    · cases cls <;> exact exec_unusedFrame ⟨hl, hb⟩

end Sys2Proof.Machine
end

section
/-! PROOFS. The receiver accepts every well-formed frame (O59). -/

namespace Sys2Proof.Machine

/-! ### The levels of a character and the line that carries it (R154) -/

/-- The low `w` bits of a number, the least significant first, are its remainder by `2 ^ w`. -/
theorem foldr_testBit (w n : Nat) :
    ((List.range w).map n.testBit).foldr (fun b m => b.toNat + 2 * m) 0 = n % 2 ^ w := by
  induction w generalizing n with
  | zero => simp [Nat.mod_one]
  | succ w ih =>
    have htail : (List.range w).map (n.testBit ∘ Nat.succ) = (List.range w).map (n / 2).testBit :=
      List.map_congr_left fun i _ => Nat.testBit_succ n i
    rw [List.range_succ_eq_map, List.map_cons, List.map_map, htail, List.foldr_cons, ih, Nat.toNat_testBit,
      pow_succ', Nat.mod_mul]
    simp

/-- The ten levels behind its start bit form the character again. -/
theorem charOf_levels (ch : RxChar) :
    charOf ((List.range 8).map ch.data.getLsbD ++ [ch.mark, ch.stopGood]) = ch := by
  have hdata : BitVec.ofNat 8 (((List.range 8).map ch.data.getLsbD).foldr
      (fun b n => b.toNat + 2 * n) 0) = ch.data := by
    refine (congrArg (BitVec.ofNat 8) (foldr_testBit 8 ch.data.toNat)).trans ?_
    rw [Nat.mod_eq_of_lt ch.data.isLt, BitVec.ofNat_toNat, BitVec.setWidth_eq]
  exact congrArg (fun d => (⟨d, ch.mark, ch.stopGood⟩ : RxChar)) hdata

theorem takeLevels_append (line : LineState) (as bs : List Bool) :
    takeLevels line (as ++ bs) = ((takeLevels (takeLevels line as).1 bs).1,
      (takeLevels line as).2 ++ (takeLevels (takeLevels line as).1 bs).2) := by
  induction as generalizing line with
  | nil => rfl
  | cons a as ih => simp only [List.cons_append, takeLevels, ih, List.append_assoc]

/-- Idle marking forms no character. -/
theorem takeLevels_idle (n : Nat) :
    takeLevels (.between true) (List.replicate n true) = (.between true, []) := by
  induction n with
  | zero => rfl
  | succ n ih => exact ih

/-- Inside a character the tenth level completes it, and no earlier one does. -/
theorem takeLevels_inChar {got levels : List Bool} {last : Bool} (h : got.length + levels.length = 9) :
    takeLevels (.inChar got) (levels ++ [last]) =
      (.between last, [charOf (got ++ levels ++ [last])]) := by
  induction levels generalizing got with
  | nil =>
    rw [List.length_nil, Nat.add_zero] at h
    simp [takeLevels, takeLevel, h]
  | cons b levels ih =>
    rw [List.length_cons] at h
    have hlength : (got ++ [b]).length < 10 := by
      rw [List.length_append, List.length_singleton]
      omega
    have hone : takeLevel (.inChar got) b = (.inChar (got ++ [b]), []) := if_pos hlength
    have hrest := ih (got := got ++ [b]) (by simp; omega)
    simp [takeLevels, hone, hrest]

/-- A marking line that carries one character forms it, and stands at its stop bit's level. -/
theorem takeLevels_char (ch : RxChar) :
    takeLevels (.between true) (charLevels ch) = (.between ch.stopGood, [ch]) := by
  have hlevels : charLevels ch =
      false :: ((List.range 8).map ch.data.getLsbD ++ [ch.mark] ++ [ch.stopGood]) := by
    simp [charLevels]
  have hstart (levels : List Bool) :
      takeLevels (.between true) (false :: levels) = takeLevels (.inChar []) levels := rfl
  rw [hlevels, hstart, takeLevels_inChar (by simp), List.nil_append, List.append_assoc]
  exact congrArg (fun c => (LineState.between ch.stopGood, [c])) (charOf_levels ch)

/-- Characters with good stop bits, one directly behind another, are each formed again. -/
theorem takeLevels_chars {chars : List RxChar} (hstop : ∀ ch ∈ chars, ch.stopGood = true) :
    takeLevels (.between true) (chars.flatMap charLevels) = (.between true, chars) := by
  induction chars with
  | nil => rfl
  | cons ch rest ih =>
    obtain ⟨hch, hrest⟩ := List.forall_mem_cons.mp hstop
    rw [List.flatMap_cons, takeLevels_append, takeLevels_char, hch, ih hrest]
    rfl

/-! ### The characters of a frame (R156) -/

/-- A character of a frame behind its header: mark bit 0 and a good stop bit. -/
def plainChar (b : Byte) : RxChar := ⟨b, false, true⟩

theorem lineChars_cons (hd : Byte) (rest : List Byte) :
    lineChars (hd :: rest) = ⟨hd, true, true⟩ :: rest.map plainChar := rfl

theorem lineChars_stopGood (bytes : List Byte) : ∀ ch ∈ lineChars bytes, ch.stopGood = true := by
  cases bytes with
  | nil => exact List.forall_mem_nil _
  | cons hd rest => simp [lineChars_cons, plainChar]

theorem lineChars_take (bytes : List Byte) (n : Nat) :
    (lineChars bytes).take n = lineChars (bytes.take n) := by
  cases bytes <;> cases n <;> simp [lineChars, List.map_take]

theorem lineChars_length (bytes : List Byte) : (lineChars bytes).length = bytes.length := by
  cases bytes <;> simp [lineChars]

/-! ### The receiver along a frame (R158, R159) -/

theorem takeChars_append (rx : Receiver) (as bs : List RxChar) :
    takeChars rx (as ++ bs) =
      let one := takeChars rx as
      let more := takeChars one.rx bs
      ⟨more.rx, more.error.or one.error, one.accepted || more.accepted⟩ := by
  induction as generalizing rx with
  | nil => simp [takeChars, RxStep.goOn]
  | cons a as ih => simp [takeChars, ih, Option.or_assoc, Bool.or_assoc]

/-- Behind a character without an error the receiver goes on as if the rest were all there is. -/
theorem takeChars_cons_goOn {rx next : Receiver} {ch : RxChar} (h : takeChar rx ch = .goOn next)
    (rest : List RxChar) : takeChars rx (ch :: rest) = takeChars next rest := by
  simp [takeChars, h, RxStep.goOn]

/-- A receiver that knows the length gathers characters until the low CRC character is next. -/
theorem takeChars_gather {hd len : Byte} {got more : List Byte}
    (h : got.length + more.length ≤ len.toNat + 1) :
    takeChars (.inFrame (hd :: len :: got)) (more.map plainChar) =
      .goOn (.inFrame (hd :: len :: (got ++ more))) := by
  induction more generalizing got with
  | nil => simp [takeChars]
  | cons b more ih =>
    rw [List.length_cons] at h
    have hone : takeChar (.inFrame (hd :: len :: got)) (plainChar b) =
        .goOn (.inFrame (hd :: len :: (got ++ [b]))) :=
      (takeChar_behindLength rfl rfl).trans (if_pos (by omega))
    rw [List.map_cons, takeChars_cons_goOn hone, ih (by simp; omega)]
    simp

/-- A frame with a length in range is gathered from HUNT until the low CRC character is next. -/
theorem takeChars_front {hd len : Byte} {more : List Byte} (hlen : len.toNat ≤ Config.bodyRoom)
    (h : more.length ≤ len.toNat + 1) :
    takeChars .hunt (lineChars (hd :: len :: more)) = .goOn (.inFrame (hd :: len :: more)) := by
  have hheader : takeChar .hunt ⟨hd, true, true⟩ = .goOn (.inFrame [hd]) := rfl
  have hlength : takeChar (.inFrame [hd]) (plainChar len) = .goOn (.inFrame [hd, len]) :=
    (takeChar_length rfl rfl).trans (if_pos hlen)
  rw [lineChars_cons, List.map_cons, takeChars_cons_goOn hheader, takeChars_cons_goOn hlength]
  exact takeChars_gather (got := []) (by simpa using h)

/-- A frame cut short of its last character has neither been accepted nor failed a check. -/
theorem takeChars_take {hd len : Byte} {more : List Byte} {n : Nat} (hlen : len.toNat ≤ Config.bodyRoom)
    (hn : n < len.toNat + 4) :
    ∃ rx, takeChars .hunt ((lineChars (hd :: len :: more)).take n) = .goOn rx := by
  rw [lineChars_take]
  match n with
  | 0 => exact ⟨_, rfl⟩
  | 1 => exact ⟨_, rfl⟩
  | n + 2 =>
    have hmore : (more.take n).length ≤ len.toNat + 1 := (List.length_take_le n more).trans (by omega)
    exact ⟨_, takeChars_front hlen hmore⟩

/-- A frame with its own CRC behind it is accepted at the last character. -/
theorem takeChars_whole {hd len : Byte} {body : List Byte} (hlen : len.toNat ≤ Config.bodyRoom)
    (hbody : body.length = len.toNat) :
    takeChars .hunt (lineChars (hd :: len :: body ++ crcBytes (hd :: len :: body))) =
      ⟨.hunt, none, true⟩ := by
  obtain ⟨hi, lo, hcrc⟩ : ∃ hi lo, crcBytes (hd :: len :: body) = [hi, lo] := ⟨_, _, rfl⟩
  have hsplit : lineChars (hd :: len :: body ++ [hi, lo]) =
      lineChars (hd :: len :: (body ++ [hi])) ++ [plainChar lo] := by
    simp [lineChars_cons]
  have hlast : takeChar (.inFrame (hd :: len :: (body ++ [hi]))) (plainChar lo) = ⟨.hunt, none, true⟩ :=
    (takeChar_lastCrc rfl rfl hbody).trans (if_pos hcrc.symm)
  rw [hcrc, hsplit, takeChars_append, takeChars_front hlen (by simp [hbody])]
  simp [takeChars, RxStep.goOn, hlast]

theorem frameBytes_eq (cls : FrameClass) (h : Header) (body : List Byte) :
    frameBytes cls h body = headerByte cls h :: byteOf body.length :: body ++
      crcBytes (headerByte cls h :: byteOf body.length :: body) := rfl

theorem frameBytes_length (cls : FrameClass) (h : Header) (body : List Byte) :
    (frameBytes cls h body).length = body.length + 4 := by
  simp [frameBytes_eq, crcBytes]

/-! ### The header character (R180) -/

theorem FrameClass.ofCode_code (cls : FrameClass) : FrameClass.ofCode cls.code = cls := by
  cases cls <;> rfl

theorem FrameClass.code_ofCode {n : Nat} (h : n < 4) : (FrameClass.ofCode n).code = n := by
  interval_cases n <;> rfl

theorem FrameClass.code_lt (cls : FrameClass) : cls.code < 4 := by
  cases cls <;> decide

theorem headerByte_toNat (cls : FrameClass) (h : Header) : (headerByte cls h).toNat =
    128 * h.spare.toNat + 32 * cls.code + 16 * h.retry.toNat + h.seq.val := by
  have := cls.code_lt
  have := h.spare.toNat_le
  have := h.retry.toNat_le
  exact byteOf_toNat (by omega)

/-- A bit is read as the remainder of a quotient. -/
theorem getLsbD_toNat (b : Byte) (i : Nat) : (b.getLsbD i).toNat = b.toNat / 2 ^ i % 2 :=
  Nat.toNat_testBit ..

theorem getLsbD_of_toNat {b : Byte} {i : Nat} {x : Bool} (h : b.toNat / 2 ^ i % 2 = x.toNat) :
    b.getLsbD i = x := by
  rw [← Bool.ofNat_toNat (b.getLsbD i), getLsbD_toNat, h, Bool.ofNat_toNat]

theorem headerOf_headerByte (cls : FrameClass) (h : Header) : headerOf (headerByte cls h) = (cls, h) := by
  have hb := headerByte_toNat cls h
  have hcls := cls.code_lt
  have hspare := h.spare.toNat_le
  have hretry := h.retry.toNat_le
  have hseq := h.seq.isLt
  have hcode : (headerByte cls h).toNat / 32 % 4 = cls.code := by omega
  have hbit7 : (headerByte cls h).getLsbD 7 = h.spare := getLsbD_of_toNat (by omega)
  have hbit4 : (headerByte cls h).getLsbD 4 = h.retry := getLsbD_of_toNat (by omega)
  have hlow : (headerByte cls h).toNat % 16 = h.seq.val := by omega
  simp only [headerOf, hcode, hbit7, hbit4, hlow, FrameClass.ofCode_code]

theorem headerByte_headerOf (b : Byte) : headerByte (headerOf b).1 (headerOf b).2 = b := by
  have hb := b.isLt
  have hcode : (FrameClass.ofCode (b.toNat / 32 % 4)).code = b.toNat / 32 % 4 :=
    FrameClass.code_ofCode (Nat.mod_lt _ (by decide))
  refine BitVec.eq_of_toNat_eq ((headerByte_toNat ..).trans ?_)
  simp only [headerOf, hcode, getLsbD_toNat]
  omega

/-- The check value of R157: the characters 31h to 39h. -/
theorem crcOf_checkValue :
    crcOf [0x31, 0x32, 0x33, 0x34, 0x35, 0x36, 0x37, 0x38, 0x39] = 0x29B1 := by decide +kernel

/-! ### The statement -/

/-- Settles O59: the line by `takeLevels_char` and `takeLevels_chars`, the frame by `takeChars_whole` at
its last character and `takeChars_take` before it, and the header by its two round trips. -/
theorem receiverAcceptsFrames : Obligations.ReceiverAcceptsFrames := by
  refine ⟨fun ch => ⟨rfl, fun idle => ?_⟩, fun frame b => ⟨rfl, rfl, ?_⟩, fun cls h body hb => ?_,
    headerOf_headerByte, headerByte_headerOf, crcOf_checkValue⟩
  · rw [takeLevels_append, takeLevels_idle, takeLevels_char]
    rfl
  · exact takeLevels_chars (lineChars_stopGood frame)
  · intro frame
    have hlen : (byteOf body.length).toNat = body.length :=
      byteOf_toNat (Nat.lt_of_le_of_lt hb (by decide))
    have hroom : (byteOf body.length).toNat ≤ Config.bodyRoom := hlen.symm ▸ hb
    have hlength : frame.length = body.length + 4 :=
      (lineChars_length _).trans (frameBytes_length cls h body)
    refine ⟨hlength, takeChars_whole hroom hlen.symm, fun n hn => ?_⟩
    obtain ⟨rx, hrx⟩ : ∃ rx, takeChars .hunt (frame.take n) = .goOn rx :=
      takeChars_take hroom (by omega)
    rw [hrx]
    exact ⟨rfl, rfl⟩

end Sys2Proof.Machine
end

section
/-! PROOFS. The step at a queue with a command (O1). -/

namespace Sys2Proof.Machine

/-- With a command at the front of the queue, a step takes it off and carries it out; with
`step_of_internal` and `step_of_idle`, this says what every step does. -/
theorem step_of_pending {s : State} {c : Instr} {rest : List Instr} (hp : s.pending = c :: rest) :
    step s = exec c { s with pending := rest } := by
  simp only [step, hp]

/-- Settles O1: taking off the command put at the front gives back the state it was put in. -/
theorem stepTakesFrontCommand : Obligations.StepTakesFrontCommand :=
  fun _ _ => step_of_pending rfl

end Sys2Proof.Machine
end
